-- ==== Sys2Proof/Word.lean ====
section
/-!
DEFINITION. The words the ATC core's bus carries (00 R12, R15; 30 R118) and the one form of access a host makes
(00 R14: `MemRead(addr, n)`, `MemWrite(addr, n, v)`).
-/

namespace Sys2Proof

/-- A 32-bit bus or register word (20 R82, R84). -/
abbrev Word := BitVec 32

/-- One byte of a RAM (10 R44) or one byte lane of a word (20 R84). -/
abbrev Byte := BitVec 8

/-- A byte offset in the core's 64 KiB window (20 R80). -/
abbrev Offset := BitVec 16

/-- A signed 16-bit PCM sample (30 R118). -/
abbrev Sample := BitVec 16

/-- One host access of `size` bytes at byte offset `off` (00 R14). The offset is relative to BASE (90 C5). The size
is any number, since a size other than 4 has an effect of its own (20 R82); `data` is what the data lines carry. -/
inductive Access where
  | read  (off : Offset) (size : Nat)
  | write (off : Offset) (size : Nat) (data : Word)
deriving DecidableEq, Repr

/-- The offset an access addresses. -/
def Access.off : Access → Offset
  | .read o _ => o
  | .write o _ _ => o

/-- The number of bytes an access asks for. -/
def Access.size : Access → Nat
  | .read _ n => n
  | .write _ n _ => n

end Sys2Proof
end

