-- ==== Sys2Proof/Config.lean ====
section
/-!
DEFINITION. What one implementation fixes and what the spec leaves free: the open parameter BASE (20 R80) and the two
families of free values (00 R16, 93 U1 and U2). None of the three has a body, so no proof can see its value.
-/

namespace Sys2Proof

/-- DESIGN CHOICE (log 9, safe). The open parameter BASE of 20 R80, counted in units of 0x10000. -/
opaque Config.baseIndex : Nat

/-- BASE, the platform address of the register window: a multiple of 0x10000 (20 R80). -/
def Config.base : Nat := 0x10000 * Config.baseIndex

/-- FREE VALUE (log 4, safe). The `any` 32-bit value that the n-th read of an output of a BUSY command returns (20 R99,
93 U1: each read drawn independently). -/
opaque Config.anyWord : Nat → Word

/-- FREE VALUE (log 5, safe). The `any` byte a RAM location holds after power-on, by its offset: drawn once and then
stored, so that repeated reads agree (10 R44 to R46, 93 U2). -/
opaque Config.powerOnByte : Nat → Byte

end Sys2Proof
end

