-- ==== Sys2Proof/Syntax.lean ====
section
/-!
DEFINITION. The instructions of the ATC core, one constructor per row of spec/opcode_table.json: the nine commands written
to CMD (30 R112) and the three side-effecting bus operations (30 R117).
-/

namespace Sys2Proof

/-- The ATC command set, version 1 (00 R3). A command has no operand (30 R111); the two writes carry their data word. -/
inductive Instr where
  /-- NOP, CODE 0x0 (45 R230). -/
  | nop
  /-- WIN_CLEAR, CODE 0x1 (44 R213). -/
  | winClear
  /-- FFT, CODE 0x2 (40 R130). -/
  | fft
  /-- PEAKS, CODE 0x3 (41 R150). -/
  | peaks
  /-- CLASSIFY, CODE 0x4 (42 R165). -/
  | classify
  /-- DECODE, CODE 0x5 (44 R216). -/
  | decode
  /-- SYN_START, CODE 0x6 (43 R185). -/
  | synStart
  /-- SYN_STOP, CODE 0x7 (43 R187). -/
  | synStop
  /-- SOFT_RESET, CODE 0x8 (45 R231). -/
  | softReset
  /-- WIN_PUSH, a write of `data` to WIN_DATA at 0x028 (44 R211, R212). -/
  | winPush (data : Word)
  /-- SYN_READ, a read of SYN_DATA at 0x040 (43 R195). -/
  | synRead
  /-- STATUS_W1C, a write of `data` to STATUS at 0x00C (45 R233). -/
  | statusW1c (data : Word)
deriving DecidableEq, Repr

end Sys2Proof
end

