-- ==== Sys2Proof/WellFormed.lean ====
section
/-!
DEFINITION. Which host accesses the bus accepts (20 R82, R83) and which instructions are well formed (30 R111).
-/

namespace Sys2Proof

/-- The unmapped offsets of the address map, as 20 R81 lists them. -/
def Offset.unmapped (off : Offset) : Bool :=
  let n := off.toNat
  (0x02C ≤ n && n < 0x030) || (0x044 ≤ n && n < 0x050) || (0x058 ≤ n && n < 0x100) ||
  (0x140 ≤ n && n < 0x200) || (0x280 ≤ n && n < 0x300) || (0x320 ≤ n && n < 0x1000) ||
  (0x1400 ≤ n && n < 0x4000)

/-- The access is 32 bits wide (20 R82). -/
def Access.sizeOk (a : Access) : Bool := a.size == 4

/-- The access is at a multiple of 4 (20 R82). -/
def Access.aligned (a : Access) : Bool := a.off.toNat % 4 == 0

/-- The access is at a mapped offset (20 R83). -/
def Access.mapped (a : Access) : Bool := !a.off.unmapped

/-- The accesses the bus accepts: every other one gets the error response (60 R254). -/
def Access.wellFormed (a : Access) : Bool := a.sizeOk && a.aligned && a.mapped

/-- Every instruction term is well formed: a command has no operand field that could be out of range (30 R111),
WIN_DATA ignores bits 31:16 of what is written (10 R32), and a STATUS write accepts every word (45 R233). The bits of a
command word that could be wrong (30 R115, R116) are checked by the decoder, which gives no instruction for them. -/
def Instr.wellFormed : Instr → Bool
  | .nop | .winClear | .fft | .peaks | .classify | .decode | .synStart | .synStop | .softReset => true
  | .winPush _ => true
  | .synRead => true
  | .statusW1c _ => true

end Sys2Proof
end

