-- ==== Sys2Proof/Decode.lean ====
section
/-!
DEFINITION. The address map (20 R81), the decoder of host accesses (30 R113, R117; 20 R82, R83, total, rejecting by name),
the encoder, and the reading of a word numbered as spec/opcode_table.json numbers it.
-/

namespace Sys2Proof

/-- The names of the address map (20 R81). -/
inductive Reg where
  | id | param | cmd | status | irqEn | cfg | fs | tol | minSamples | winCount | winData
  | symLen | synLen | ampl | synPos | synData | result | peakCnt
  | toneLo (i : Fin 8) | toneHi (i : Fin 8)
  | peakBin (j : Fin 8) | peakFreq (j : Fin 8) | peakMagLo (j : Fin 8) | peakMagHi (j : Fin 8)
  | matchFreq (i : Fin 8)
  | msg (i : Fin 256)
  | winView (i : Fin 4096)
  | specRe (k : Fin 4096) | specIm (k : Fin 4096)
deriving DecidableEq, Repr

/-- Why an access is no instruction and no plain register access: the causes of ERR_BUS (60 R254) and of
ERR_ILLEGAL (60 R251). -/
inductive Reject where
  /-- The access is not 32 bits wide (20 R82). -/
  | wrongSize
  /-- The offset is no multiple of 4 (20 R82). -/
  | misaligned
  /-- The offset is in no row of the map (20 R83). -/
  | unmapped
  /-- A CMD write with one of bits 31:4 set (30 R115). -/
  | reservedBits
  /-- A CMD write with CODE in 0x9..0xF (30 R116). -/
  | reservedCode
deriving DecidableEq, Repr

/-- What a host access is: an instruction of the table, a plain register load or store (45 R236, R237), or an access
rejected by name. -/
inductive Decoded where
  | instr (i : Instr)
  | load (r : Reg)
  | store (r : Reg) (v : Word)
  | rejected (why : Reject)
deriving DecidableEq, Repr

/-- The registers below 0x100 (20 R81). -/
def controlRegAt : Nat → Option Reg
  | 0x000 => some .id
  | 0x004 => some .param
  | 0x008 => some .cmd
  | 0x00C => some .status
  | 0x010 => some .irqEn
  | 0x014 => some .cfg
  | 0x018 => some .fs
  | 0x01C => some .tol
  | 0x020 => some .minSamples
  | 0x024 => some .winCount
  | 0x028 => some .winData
  | 0x030 => some .symLen
  | 0x034 => some .synLen
  | 0x038 => some .ampl
  | 0x03C => some .synPos
  | 0x040 => some .synData
  | 0x050 => some .result
  | 0x054 => some .peakCnt
  | _ => none

/-- The four words of a peak slot (10 R42). -/
def peakRegAt (d : Nat) : Reg :=
  let j : Fin 8 := Fin.ofNat 8 (d / 16)
  if d % 16 < 4 then .peakBin j
  else if d % 16 < 8 then .peakFreq j
  else if d % 16 < 12 then .peakMagLo j
  else .peakMagHi j

/-- The register a word-aligned offset names, or none where the offset is unmapped (20 R81). -/
def regAt (off : Offset) : Option Reg :=
  let n := off.toNat
  if n < 0x100 then controlRegAt n
  else if n < 0x140 then
    let i : Fin 8 := Fin.ofNat 8 ((n - 0x100) / 8)
    some (if n % 8 < 4 then .toneLo i else .toneHi i)
  else if n < 0x200 then none
  else if n < 0x280 then some (peakRegAt (n - 0x200))
  else if n < 0x300 then none
  else if n < 0x320 then some (.matchFreq (Fin.ofNat 8 ((n - 0x300) / 4)))
  else if n < 0x1000 then none
  else if n < 0x1400 then some (.msg (Fin.ofNat 256 ((n - 0x1000) / 4)))
  else if n < 0x4000 then none
  else if n < 0x8000 then some (.winView (Fin.ofNat 4096 ((n - 0x4000) / 4)))
  else
    let k : Fin 4096 := Fin.ofNat 4096 ((n - 0x8000) / 8)
    some (if n % 8 < 4 then .specRe k else .specIm k)

/-- The offset of a register, as the rows of 20 R81 give it. -/
def Reg.offset (r : Reg) : Offset :=
  BitVec.ofNat 16 <| match r with
  | .id => 0x000
  | .param => 0x004
  | .cmd => 0x008
  | .status => 0x00C
  | .irqEn => 0x010
  | .cfg => 0x014
  | .fs => 0x018
  | .tol => 0x01C
  | .minSamples => 0x020
  | .winCount => 0x024
  | .winData => 0x028
  | .symLen => 0x030
  | .synLen => 0x034
  | .ampl => 0x038
  | .synPos => 0x03C
  | .synData => 0x040
  | .result => 0x050
  | .peakCnt => 0x054
  | .toneLo i => 0x100 + 8 * i.val
  | .toneHi i => 0x104 + 8 * i.val
  | .peakBin j => 0x200 + 16 * j.val
  | .peakFreq j => 0x204 + 16 * j.val
  | .peakMagLo j => 0x208 + 16 * j.val
  | .peakMagHi j => 0x20C + 16 * j.val
  | .matchFreq i => 0x300 + 4 * i.val
  | .msg i => 0x1000 + 4 * i.val
  | .winView i => 0x4000 + 4 * i.val
  | .specRe k => 0x8000 + 8 * k.val
  | .specIm k => 0x8004 + 8 * k.val

/-- The command a CODE names (30 R112); 0x9..0xF are reserved (30 R116). -/
def commandOfCode : Nat → Option Instr
  | 0x0 => some .nop
  | 0x1 => some .winClear
  | 0x2 => some .fft
  | 0x3 => some .peaks
  | 0x4 => some .classify
  | 0x5 => some .decode
  | 0x6 => some .synStart
  | 0x7 => some .synStop
  | 0x8 => some .softReset
  | _ => none

/-- The decoding of a value written to CMD, reserved bits first (30 R113, R115, R116). -/
def decodeCommand (v : Word) : Decoded :=
  if v.extractLsb' 4 28 ≠ 0#28 then .rejected .reservedBits
  else match commandOfCode (v.extractLsb' 0 4).toNat with
    | some i => .instr i
    | none => .rejected .reservedCode

/-- What a read of a mapped register is: SYN_READ (30 R117) or a plain load. -/
def decodeRead : Reg → Decoded
  | .synData => .instr .synRead
  | r => .load r

/-- What a write to a mapped register is: a command, WIN_PUSH, STATUS_W1C (30 R113, R117) or a plain store. -/
def decodeWrite (v : Word) : Reg → Decoded
  | .cmd => decodeCommand v
  | .winData => .instr (.winPush v)
  | .status => .instr (.statusW1c v)
  | r => .store r v

/-- The decoder: every host access, the bus checks first (20 R82, R83; 60 R260). -/
def decode (a : Access) : Decoded :=
  if a.size ≠ 4 then .rejected .wrongSize
  else if a.off.toNat % 4 ≠ 0 then .rejected .misaligned
  else match regAt a.off, a with
    | none, _ => .rejected .unmapped
    | some r, .read _ _ => decodeRead r
    | some r, .write _ _ v => decodeWrite v r

/-- The instruction an access is, if it is one. -/
def Decoded.instr? : Decoded → Option Instr
  | .instr i => some i
  | .load _ | .store _ _ | .rejected _ => none

/-- The access that performs an instruction (30 R112, R117, R120). -/
def encode : Instr → Access
  | .nop => .write 0x008#16 4 0x00000000#32
  | .winClear => .write 0x008#16 4 0x00000001#32
  | .fft => .write 0x008#16 4 0x00000002#32
  | .peaks => .write 0x008#16 4 0x00000003#32
  | .classify => .write 0x008#16 4 0x00000004#32
  | .decode => .write 0x008#16 4 0x00000005#32
  | .synStart => .write 0x008#16 4 0x00000006#32
  | .synStop => .write 0x008#16 4 0x00000007#32
  | .softReset => .write 0x008#16 4 0x00000008#32
  | .winPush v => .write 0x028#16 4 v
  | .synRead => .read 0x040#16 4
  | .statusW1c v => .write 0x00C#16 4 v

/-- The access that a word of spec/opcode_table.json stands for. A row of format CMD has 32 bits: the value written to CMD.
A row of format BUS has 16 bits, the offset OFF; its DATA word is laid above it (bits 47:16) and is 0 where the word
has only 16 bits. The table gives DIR outside the bits: the two offsets whose rows say "write" are writes, every other
one is a read (DESIGN CHOICE, log 10, safe). -/
def accessOfTableWord (nbits w : Nat) : Option Access :=
  if nbits = 32 then some (.write 0x008#16 4 (BitVec.ofNat 32 w))
  else if nbits = 16 ∨ nbits = 48 then
    let off : Offset := BitVec.ofNat 16 w
    if off = 0x028#16 ∨ off = 0x00C#16 then
      some (.write off 4 (BitVec.ofNat 32 ((w % 2 ^ nbits) / 2 ^ 16)))
    else some (.read off 4)
  else none

/-- The instruction the decoder reads from a word numbered as spec/opcode_table.json numbers it. -/
def decodeTableWord (nbits w : Nat) : Option Instr :=
  match accessOfTableWord nbits w with
  | some a => (decode a).instr?
  | none => none

/-- The platform address of an offset: BASE + OFF (45 R235). -/
def platformAddress (off : Offset) : Nat := Config.base + off.toNat

/-- The offset at which a platform address falls in the core's window, if it does (20 R80). -/
def offsetOfPlatform (addr : Nat) : Option Offset :=
  if Config.base ≤ addr ∧ addr < Config.base + 0x10000 then some (BitVec.ofNat 16 (addr - Config.base)) else none

end Sys2Proof
end

