-- ==== Sys2Proof/Machine/State.lean ====
section
/-!
DEFINITION. The state of the ATC core: every piece of state that spec/10_state.md names, the model's three fields of its own
(inputs, response, draws), and the state after reset (10 R50, 70 R280).
-/

namespace Sys2Proof.Machine

/-- The analysis commands the engine can hold (10 R20, 30 R112). -/
inductive Analysis where
  | fft | peaks | classify | decode
deriving DecidableEq, Repr

/-- The engine's control state ENG (10 R20). -/
inductive Engine where
  | idle
  | busy (c : Analysis)
deriving DecidableEq, Repr

/-- One peak slot (10 R42). PEAK_MAG_LO and PEAK_MAG_HI are the two halves of `mag` (41 R154). -/
structure PeakSlot where
  bin : BitVec 12
  freq : Word
  mag : BitVec 64
deriving DecidableEq, Repr

/-- What an agent outside the core's own control does next (20 R93): a host access, a turn of the ENGINE (20 R95), or
the reset input being asserted (70 R280). -/
inductive Input where
  | host (a : Access)
  | engine
  | resetPin
deriving DecidableEq, Repr

/-- What the bus answered to the last host access: nothing yet, a normal answer to a write, the data of a read, or the
bus error response (00 R14, 20 R82). -/
inductive Response where
  | none
  | ok
  | data (v : Word)
  | error
deriving DecidableEq, Repr

/-- A RAM's bytes: (offset, byte) pairs, offsets strictly rising; an offset that is not listed has not been written
since power-on (log 5). -/
abbrev Memory := List Host.Cell

/-- The state of the core (10 R20 to R50). -/
structure State where
  /-- ENG (10 R20). -/
  eng : Engine
  /-- STATUS.DONE (10 R25). -/
  done : Bool
  /-- STATUS.ERR_ILLEGAL (10 R25). -/
  errIllegal : Bool
  /-- STATUS.ERR_BUSY (10 R25). -/
  errBusy : Bool
  /-- STATUS.ERR_OVF (10 R25). -/
  errOvf : Bool
  /-- STATUS.ERR_BUS (10 R25). -/
  errBus : Bool
  /-- STATUS.SYN_ACTIVE (10 R25, 43 R186). -/
  synActive : Bool
  /-- IRQ_EN (10 R26). -/
  irqEn : Word
  /-- CFG.LOG2N (10 R27). -/
  log2n : BitVec 4
  /-- CFG.PEAK_K (10 R27). -/
  peakK : BitVec 4
  /-- FS (10 R28). -/
  fs : BitVec 18
  /-- TOL (10 R29). -/
  tol : Word
  /-- MIN_SAMPLES (10 R30). -/
  minSamples : BitVec 13
  /-- WIN_COUNT (10 R31). -/
  winCount : BitVec 13
  /-- SYM_LEN (10 R33). -/
  symLen : BitVec 24
  /-- SYN_LEN (10 R34). -/
  synLen : BitVec 9
  /-- AMPL (10 R35). -/
  ampl : BitVec 17
  /-- SYN_POS (10 R36). -/
  synPos : Word
  /-- ACC[i][0], the accumulators of the low tones (10 R47). -/
  accLo : Vector Word 8
  /-- ACC[i][1], the accumulators of the high tones (10 R47). -/
  accHi : Vector Word 8
  /-- RESULT.BYTE (10 R38). -/
  resByte : Byte
  /-- RESULT.MATCHED (10 R38). -/
  resMatched : Byte
  /-- RESULT.VALID (10 R38). -/
  resValid : Bool
  /-- RESULT.DROPPED (10 R38). -/
  resDropped : Bool
  /-- PEAK_CNT (10 R39). -/
  peakCnt : BitVec 4
  /-- PEAK_BIN, PEAK_FREQ, PEAK_MAG (10 R42). -/
  peaks : Vector PeakSlot 8
  /-- MATCH_FREQ (10 R43). -/
  matchFreq : Vector Word 8
  /-- TONE_LO (10 R40). -/
  toneLo : Vector Word 8
  /-- TONE_HI (10 R40). -/
  toneHi : Vector Word 8
  /-- The bytes of MSG, WIN and SPEC at their host offsets (10 R44 to R46). -/
  mem : Memory
  /-- The model's own: what the agents do next, the head first (log 1). -/
  inputs : List Input
  /-- The model's own: the bus answer to the last host access (log 3). -/
  response : Response
  /-- The model's own: how many `any` values have been drawn (log 4). -/
  draws : Nat
deriving DecidableEq, Repr

/-- No access and no computation of the core stops it (60 R250, R256; 70 R290): the type of faults is empty, so no step
can fault (log 8, safe). -/
inductive Fault where
deriving DecidableEq, Repr

/-- Why a step has no meaning. -/
inductive Refusal where
  /-- Raised only by an arm of exec that has no meaning yet; there is none in this model. Safe. -/
  | notModelled (mnemonic : String)
deriving DecidableEq, Repr

/-- An empty peak slot (41 R154, 10 R50). -/
def PeakSlot.zero : PeakSlot := ⟨0, 0, 0⟩

/-- The reset values of TONE_LO[0..7] (10 R40). -/
def toneLoReset : Vector Word 8 :=
  #v[0x003E8000, 0x00578000, 0x00708000, 0x00898000, 0x00A28000, 0x00BB8000, 0x00D48000, 0x00ED8000]

/-- The reset values of TONE_HI[0..7] (10 R40). -/
def toneHiReset : Vector Word 8 :=
  #v[0x004B0000, 0x00640000, 0x007D0000, 0x00960000, 0x00AF0000, 0x00C80000, 0x00E10000, 0x00FA0000]

/-- The machine right after power-on and reset (10 R50, 70 R280): the RAMs hold free values (log 5), nothing is pending on
the bus (log 1), nothing has been answered (log 3) and nothing has been drawn (log 4). -/
def State.reset : State where
  eng := .idle
  done := false
  errIllegal := false
  errBusy := false
  errOvf := false
  errBus := false
  synActive := false
  irqEn := 0
  log2n := 12
  peakK := 8
  fs := 44100
  tol := 0x00032000
  minSamples := 2048
  winCount := 0
  symLen := 44100
  synLen := 0
  ampl := 0
  synPos := 0
  accLo := Vector.replicate 8 0
  accHi := Vector.replicate 8 0
  resByte := 0
  resMatched := 0
  resValid := false
  resDropped := false
  peakCnt := 0
  peaks := Vector.replicate 8 PeakSlot.zero
  matchFreq := Vector.replicate 8 0
  toneLo := toneLoReset
  toneHi := toneHiReset
  mem := []
  inputs := []
  response := .none
  draws := 0

end Sys2Proof.Machine
end

