-- ==== Sys2Proof/Machine/Ops.lean ====
section
/-!
DEFINITION. The named operations over memory and registers: the RAM bytes and the words built from them (10 R44 to R46, 20 R84),
the sticky error flags and the bus answers (60 R250 to R254: an error is the core's only exception, and it has no entry and
no return, 60 R261, R262), reset (70 R280), and the drawing of an `any` value (20 R99).
-/

namespace Sys2Proof.Machine

/-! ## Bytes -/

/-- Little-endian bytes of a word, byte lane 0 first (20 R84). -/
def bytesOfWord (w : Word) : List Byte :=
  [w.extractLsb' 0 8, w.extractLsb' 8 8, w.extractLsb' 16 8, w.extractLsb' 24 8]

/-- The two byte lanes of a sample. -/
def bytesOfSample (x : Sample) : List Byte := [x.extractLsb' 0 8, x.extractLsb' 8 8]

/-- Bytes at rising offsets from `a`. -/
def cellsFrom (a : Nat) : List Byte → List Host.Cell
  | [] => []
  | b :: bs => (a, b) :: cellsFrom (a + 1) bs

/-- Memory after `bs` is stored at `a`, `a+1`, ...: what lay below, the new bytes, what lay above. -/
def Memory.store (m : Memory) (a : Nat) (bs : List Byte) : Memory :=
  m.filter (fun c => c.1 < a) ++ cellsFrom a bs ++ m.filter (fun c => a + bs.length ≤ c.1)

/-- The canonical form: offsets strictly rising. An unlisted offset has no stored byte at all (it has not been written
since power-on), so no listed byte can equal what an unlisted offset reads as. -/
def Memory.wf : Memory → Bool
  | [] => true
  | [_] => true
  | c :: d :: m => decide (c.1 < d.1) && Memory.wf (d :: m)

/-- The RAM byte at an offset: the byte written there, or the free value it has held since power-on (93 U2). -/
def State.ramByte (s : State) (a : Nat) : Byte := (s.mem.lookup a).getD (Config.powerOnByte a)

/-- The 16 bits at `a`, lane 0 lowest (20 R84). -/
def State.ramHalf (s : State) (a : Nat) : BitVec 16 := s.ramByte (a + 1) ++ s.ramByte a

/-- The 32 bits at `a`, lane 0 lowest (20 R84). -/
def State.ramWord (s : State) (a : Nat) : Word :=
  s.ramByte (a + 3) ++ s.ramByte (a + 2) ++ s.ramByte (a + 1) ++ s.ramByte a

/-- The state after bytes are stored. -/
def State.storeBytes (s : State) (a : Nat) (bs : List Byte) : State := { s with mem := s.mem.store a bs }

/-! ## The three RAMs (10 R44 to R46) -/

/-- The offset of MSG[i] (20 R81). -/
def msgAddr (i : Nat) : Nat := 0x1000 + 4 * i

/-- The offset of WIN[i], behind the window view (20 R81, R89). -/
def winAddr (i : Nat) : Nat := 0x4000 + 4 * i

/-- The offset of SPEC[k].re; SPEC[k].im is 4 above it (20 R81). -/
def specAddr (k : Nat) : Nat := 0x8000 + 8 * k

/-- MSG[i] (10 R44). -/
def State.msg (s : State) (i : Nat) : Byte := s.ramByte (msgAddr i)

/-- MSG[i] <- b (10 R44). -/
def State.setMsg (s : State) (i : Nat) (b : Byte) : State := s.storeBytes (msgAddr i) [b]

/-- WIN[i] (10 R45). -/
def State.win (s : State) (i : Nat) : Sample := s.ramHalf (winAddr i)

/-- WIN[i] <- x (10 R45). -/
def State.setWin (s : State) (i : Nat) (x : Sample) : State := s.storeBytes (winAddr i) (bytesOfSample x)

/-- SPEC[k].re (10 R46). -/
def State.specRe (s : State) (k : Nat) : Word := s.ramWord (specAddr k)

/-- SPEC[k].im (10 R46). -/
def State.specIm (s : State) (k : Nat) : Word := s.ramWord (specAddr k + 4)

/-- SPEC[0], SPEC[1], ... <- the bins given as (re, im) words (40 R131). -/
def State.setSpec (s : State) (bins : List (Word × Word)) : State :=
  s.storeBytes (specAddr 0) (bins.flatMap fun z => bytesOfWord z.1 ++ bytesOfWord z.2)

/-! ## Errors and bus answers (60 R250) -/

/-- The four sticky error flags (60 R251 to R254). -/
inductive ErrFlag where
  | illegal | busy | ovf | bus
deriving DecidableEq, Repr

/-- `set_err(FLAG)` (00 R14, 60 R258): the flag becomes or stays 1. -/
def State.setErr (s : State) : ErrFlag → State
  | .illegal => { s with errIllegal := true }
  | .busy => { s with errBusy := true }
  | .ovf => { s with errOvf := true }
  | .bus => { s with errBus := true }

/-- What the bus answers. -/
def State.respond (s : State) (r : Response) : State := { s with response := r }

/-- An access the core refuses: one error flag, no other effect, a normal bus answer (60 R250). -/
def State.refuse (s : State) (f : ErrFlag) : State := (s.setErr f).respond .ok

/-- `raise BusError` (60 R254): ERR_BUS and the error response. -/
def State.raiseBusError (s : State) : State := (s.setErr .bus).respond .error

/-! ## Registers shared by several units -/

/-- The window length N = 2^CFG.LOG2N (10 R27). -/
def State.windowLength (s : State) : Nat := 2 ^ s.log2n.toNat

/-- ENG is BUSY(_) (10 R20). -/
def State.isBusy (s : State) : Bool := s.eng != .idle

/-- The tone register of position i and bit value v (10 R40). -/
def State.tone (s : State) (i : Fin 8) (v : Bool) : Word := if v then s.toneHi.get i else s.toneLo.get i

/-- ACC[i][v] (10 R47). -/
def State.acc (s : State) (i : Fin 8) (v : Bool) : Word := if v then s.accHi.get i else s.accLo.get i

/-- Eight registers given by index. -/
def vec8 {α : Type} (f : Fin 8 → α) : Vector α 8 := #v[f 0, f 1, f 2, f 3, f 4, f 5, f 6, f 7]

/-! ## Reset (70 R280) and free draws (20 R99) -/

/-- The state change of reset (70 R280), from any state: every register takes its reset value; the RAMs, and what is not
the core's (inputs, response, draws), stay. -/
def State.resetCore (s : State) : State :=
  { s with
    eng := .idle
    done := false, errIllegal := false, errBusy := false, errOvf := false, errBus := false, synActive := false
    irqEn := 0
    log2n := 12, peakK := 8, fs := 44100, tol := 0x00032000, minSamples := 2048
    winCount := 0
    symLen := 44100, synLen := 0, ampl := 0, synPos := 0
    accLo := Vector.replicate 8 0, accHi := Vector.replicate 8 0
    resByte := 0, resMatched := 0, resValid := false, resDropped := false
    peakCnt := 0
    peaks := Vector.replicate 8 PeakSlot.zero
    matchFreq := Vector.replicate 8 0
    toneLo := toneLoReset, toneHi := toneHiReset }

/-- A read that answers an `any` value, each drawn anew (20 R99, 93 U1). -/
def State.respondAny (s : State) : State :=
  { s with response := .data (Config.anyWord s.draws), draws := s.draws + 1 }

end Sys2Proof.Machine
end

