-- ==== Sys2Proof/Machine/Flags.lean ====
section
/-!
DEFINITION. STATUS as the host reads it, its write-one-to-clear, and the interrupt output (10 R25, R48; 45 R233, R237; 60 R259).
-/

namespace Sys2Proof.Machine

/-- STATUS.SYN_DONE, computed at the read on unbounded integers (10 R25, 43 R196). -/
def State.synDone (s : State) : Bool := decide (s.symLen.toNat * s.synLen.toNat ≤ s.synPos.toNat)

/-- STATUS as a read returns it (45 R237): reserved bits 0. -/
def State.statusWord (s : State) : Word :=
  0#22 ++ BitVec.ofBool s.synDone ++ BitVec.ofBool s.synActive ++
  BitVec.ofBool s.errBus ++ BitVec.ofBool s.errOvf ++ BitVec.ofBool s.errBusy ++ BitVec.ofBool s.errIllegal ++
  0#2 ++ BitVec.ofBool s.done ++ BitVec.ofBool s.isBusy

/-- The write of v to STATUS (45 R233): bits 1, 4, 5, 6 and 7 are cleared by writing 1. -/
def State.clearFlags (s : State) (v : Word) : State :=
  { s with
    done := s.done && !v.getLsbD 1
    errIllegal := s.errIllegal && !v.getLsbD 4
    errBusy := s.errBusy && !v.getLsbD 5
    errOvf := s.errOvf && !v.getLsbD 6
    errBus := s.errBus && !v.getLsbD 7 }

/-- The enable bits IRQ_EN has (45 R234). -/
def irqEnMask : Word := 0x000000F2

/-- The interrupt output, a level that follows STATUS and IRQ_EN (10 R48, 60 R259). -/
def State.irq (s : State) : Bool :=
  (s.statusWord.extractLsb' 4 4 &&& s.irqEn.extractLsb' 4 4) != 0#4 || (s.done && s.irqEn.getLsbD 1)

end Sys2Proof.Machine
end

