-- ==== Sys2Proof/Machine/Operands.lean ====
section
/-!
DEFINITION. The operand forms: the effective window (10 R45), the legal value each register keeps of a written word
(10 R26 to R35, 45 R236), the registers as a host reads them (45 R237), the interlocks (60 R252) and the outputs of a BUSY
command (20 R99).
-/

namespace Sys2Proof.Machine

/-! ## The effective window -/

/-- xw[i]: WIN[i] below WIN_COUNT, silence from there on (10 R45, 44 R215). -/
def State.xw (s : State) (i : Nat) : Sample := if i < s.winCount.toNat then s.win i else 0

/-! ## Legalisation (45 R236) -/

/-- `clamp(x, lo, hi)` (45 R236). -/
def clampNat (x lo hi : Nat) : Nat := min (max x lo) hi

/-- CFG.LOG2N kept of a written word (10 R27). -/
def legalLog2n (v : Word) : BitVec 4 := BitVec.ofNat 4 (clampNat (v.extractLsb' 0 4).toNat 3 12)

/-- CFG.PEAK_K kept of a written word (10 R27). -/
def legalPeakK (v : Word) : BitVec 4 := BitVec.ofNat 4 (clampNat (v.extractLsb' 8 4).toNat 1 8)

/-- FS kept of a written word (10 R28). -/
def legalFs (v : Word) : BitVec 18 := BitVec.ofNat 18 (max (v.extractLsb' 0 18).toNat 1)

/-- SYM_LEN kept of a written word (10 R33). -/
def legalSymLen (v : Word) : BitVec 24 := BitVec.ofNat 24 (max (v.extractLsb' 0 24).toNat 1)

/-- SYN_LEN kept of a written word (10 R34). -/
def legalSynLen (v : Word) : BitVec 9 := BitVec.ofNat 9 (min (v.extractLsb' 0 9).toNat 256)

/-- AMPL kept of a written word (10 R35). -/
def legalAmpl (v : Word) : BitVec 17 := BitVec.ofNat 17 (min (v.extractLsb' 0 17).toNat 0x8000)

/-! ## Registers as words (45 R237): reserved bits read 0 -/

/-- ID (10 R22). -/
def idValue : Word := 0x41544331

/-- PARAM (10 R23). -/
def paramValue : Word := 0x0100C83C

/-- CFG as a read returns it (10 R27): `(k << 8) | n`. -/
def State.cfgWord (s : State) : Word := 0#20 ++ s.peakK ++ 0#4 ++ s.log2n

/-- RESULT as a read returns it (10 R38). -/
def State.resultWord (s : State) : Word :=
  0#14 ++ BitVec.ofBool s.resDropped ++ BitVec.ofBool s.resValid ++ s.resMatched ++ s.resByte

/-- The value a register holds, as a host read returns it (45 R237). SYN_DATA is read by SYN_READ, not here. -/
def State.regValue (s : State) : Reg → Word
  | .id => idValue
  | .param => paramValue
  | .cmd => 0
  | .status => s.statusWord
  | .irqEn => s.irqEn
  | .cfg => s.cfgWord
  | .fs => s.fs.setWidth 32
  | .tol => s.tol
  | .minSamples => s.minSamples.setWidth 32
  | .winCount => s.winCount.setWidth 32
  | .winData => 0
  | .symLen => s.symLen.setWidth 32
  | .synLen => s.synLen.setWidth 32
  | .ampl => s.ampl.setWidth 32
  | .synPos => s.synPos
  | .synData => 0
  | .result => s.resultWord
  | .peakCnt => s.peakCnt.setWidth 32
  | .toneLo i => s.toneLo.get i
  | .toneHi i => s.toneHi.get i
  | .peakBin j => (s.peaks.get j).bin.setWidth 32
  | .peakFreq j => (s.peaks.get j).freq
  | .peakMagLo j => (s.peaks.get j).mag.extractLsb' 0 32
  | .peakMagHi j => (s.peaks.get j).mag.extractLsb' 32 32
  | .matchFreq i => s.matchFreq.get i
  | .msg i => (s.msg i.val).setWidth 32
  | .winView i => (s.xw i.val).signExtend 32
  | .specRe k => s.specRe k.val
  | .specIm k => s.specIm k.val

/-! ## Interlocks (60 R252) -/

/-- The stores refused while ENG is BUSY(_) (60 R252); WIN_DATA writes are WIN_PUSH's own. -/
def lockedByEngine : Reg → Bool
  | .cfg | .fs | .tol | .minSamples | .toneLo _ | .toneHi _ => true
  | _ => false

/-- The stores refused while SYN_ACTIVE is 1 (60 R252). -/
def lockedBySynth : Reg → Bool
  | .fs | .toneLo _ | .toneHi _ | .symLen | .synLen | .ampl | .msg _ => true
  | _ => false

/-- `refused(OFF)` of 45 R236. -/
def State.storeRefused (s : State) (r : Reg) : Bool :=
  (s.isBusy && lockedByEngine r) || (s.synActive && lockedBySynth r)

/-! ## Outputs of a BUSY command (20 R99) -/

/-- The outputs of FFT: SPEC[0..N-1] (20 R99; DEDUCED, log 7, unsafe: entries k >= N are none). -/
def State.fftOutput (s : State) : Reg → Bool
  | .specRe k | .specIm k => decide (k.val < s.windowLength)
  | _ => false

/-- The outputs of PEAKS (20 R99). -/
def peaksOutput : Reg → Bool
  | .peakCnt | .peakBin _ | .peakFreq _ | .peakMagLo _ | .peakMagHi _ => true
  | _ => false

/-- The outputs of CLASSIFY (20 R99). -/
def classifyOutput : Reg → Bool
  | .result | .matchFreq _ => true
  | _ => false

/-- The outputs that DECODE adds to those of the other three (20 R99). -/
def windowOutput : Reg → Bool
  | .winCount | .winView _ => true
  | _ => false

/-- The register is an output of the command c (20 R99). -/
def State.outputOf (s : State) (c : Analysis) (r : Reg) : Bool :=
  match c with
  | .fft => s.fftOutput r
  | .peaks => peaksOutput r
  | .classify => classifyOutput r
  | .decode => s.fftOutput r || peaksOutput r || classifyOutput r || windowOutput r

/-- A read of the register returns an `any` value now (20 R99; DEDUCED, log 6, unsafe). -/
def State.readsAny (s : State) (r : Reg) : Bool :=
  match s.eng with
  | .idle => false
  | .busy c => s.outputOf c r

end Sys2Proof.Machine
end

