-- ==== Sys2Proof/Machine/Control.lean ====
section
/-!
DEFINITION. The control commands and the plain register accesses (spec/45_control.md): NOP, SOFT_RESET, STATUS_W1C, register loads
and stores, and the effect of an access rejected by name (60 R251, R254).
-/

namespace Sys2Proof.Machine

/-- NOP (45 R230). -/
def execNop (s : State) : Host.Outcome State Fault Refusal := .next (s.respond .ok)

/-- SOFT_RESET (45 R231): the state change of 70 R280; a BUSY command is aborted (45 R232). -/
def execSoftReset (s : State) : Host.Outcome State Fault Refusal := .next (s.resetCore.respond .ok)

/-- STATUS_W1C (45 R233). -/
def execStatusW1c (v : Word) (s : State) : Host.Outcome State Fault Refusal := .next ((s.clearFlags v).respond .ok)

/-- A plain load (45 R237): the register's value, or an `any` value for an output of the BUSY command (20 R99). -/
def State.load (s : State) (r : Reg) : State :=
  if s.readsAny r then s.respondAny else s.respond (.data (s.regValue r))

/-- A CFG write that is not refused (45 R236): a new LOG2N empties the window (44 R214). -/
def State.writeCfg (s : State) (v : Word) : State :=
  { s with
    log2n := legalLog2n v
    peakK := legalPeakK v
    winCount := if legalLog2n v = s.log2n then s.winCount else 0 }

/-- A write that is not refused (45 R236); writes to read-only registers are ignored (20 R85). CMD, STATUS and WIN_DATA writes
are instructions or rejected, so no store of them is ever decoded. -/
def State.writeReg (s : State) (v : Word) : Reg → State
  | .irqEn => { s with irqEn := v &&& irqEnMask }
  | .cfg => s.writeCfg v
  | .fs => { s with fs := legalFs v }
  | .tol => { s with tol := v }
  | .minSamples => { s with minSamples := v.extractLsb' 0 13 }
  | .symLen => { s with symLen := legalSymLen v }
  | .synLen => { s with synLen := legalSynLen v }
  | .ampl => { s with ampl := legalAmpl v }
  | .toneLo i => { s with toneLo := s.toneLo.set i.val v i.isLt }
  | .toneHi i => { s with toneHi := s.toneHi.set i.val v i.isLt }
  | .msg i => s.setMsg i.val (v.extractLsb' 0 8)
  | .id | .param | .winCount | .synPos | .synData | .result | .peakCnt | .peakBin _ | .peakFreq _ | .peakMagLo _
  | .peakMagHi _ | .matchFreq _ | .winView _ | .specRe _ | .specIm _ => s
  | .cmd | .status | .winData => s

/-- A plain store (45 R236): refused by an interlock (60 R252), or performed. -/
def State.store (s : State) (r : Reg) (v : Word) : State :=
  if s.storeRefused r then s.refuse .busy else (s.writeReg v r).respond .ok

/-- The effect of a rejected access: ERR_BUS with the error response (60 R254), or ERR_ILLEGAL (60 R251). -/
def State.reject (s : State) : Reject → State
  | .wrongSize | .misaligned | .unmapped => s.raiseBusError
  | .reservedBits | .reservedCode => s.refuse .illegal

end Sys2Proof.Machine
end

