-- ==== Sys2Proof/Machine/Synth.lean ====
section
/-!
DEFINITION. The NCO waveform synthesizer (spec/43_synth.md): SYN_START, SYN_STOP and SYN_READ.
-/

namespace Sys2Proof.Machine

/-- FTW[i][v] (43 R190). DESIGN CHOICE (log 11, safe): Lean's division by 0 gives 0, in states with FS = 0 that no run reaches. -/
def State.ftw (s : State) (i : Fin 8) (v : Bool) : Word :=
  BitVec.ofNat 32 (((s.tone i v).toNat * 2 ^ 21 + s.fs.toNat) / (2 * s.fs.toNat))

/-- b(n), clamped to the last byte (43 R189); SYM_LEN is never 0 in a run (log 11). -/
def State.byteIndex (s : State) (n : Nat) : Nat := min (n / s.symLen.toNat) (s.synLen.toNat - 1)

/-- B = MSG[b(SYN_POS)] (43 R192). -/
def State.synByte (s : State) : Byte := s.msg (s.byteIndex s.synPos.toNat)

/-- bit_i = B[7 - i] (43 R192). -/
def messageBit (b : Byte) (i : Fin 8) : Bool := b.getLsbD (7 - i.val)

/-- The sine of oscillator (i, v): the top 12 bits of its phase (43 R191). -/
def State.oscillator (s : State) (i : Fin 8) (v : Bool) : Int := sine (s.acc i v >>> 20).toNat

/-- acc(n), the sum over the eight positions of the selected oscillators (43 R192, R193). -/
def State.toneSum (s : State) : Int :=
  ((List.finRange 8).map fun i => s.oscillator i (messageBit s.synByte i)).sum

/-- The output sample: `trunc(acc * AMPL * 32767 / 2^33)`, toward zero (43 R194). -/
def quantise (acc : Int) (ampl : Nat) : Int := (acc * ampl * 32767).tdiv (2 ^ 33)

/-- y(SYN_POS), or 0 for an empty message (43 R194, R195, R199). -/
def State.synSample (s : State) : Int :=
  if s.synLen = 0 then 0 else quantise s.toneSum s.ampl.toNat

/-- Every oscillator and SYN_POS one sample on (43 R195). -/
def State.advanceSynth (s : State) : State :=
  { s with
    accLo := vec8 fun i => s.acc i false + s.ftw i false
    accHi := vec8 fun i => s.acc i true + s.ftw i true
    synPos := s.synPos + 1 }

/-- SYN_START (43 R185). -/
def execSynStart (s : State) : Host.Outcome State Fault Refusal :=
  .next ({ s with
    synPos := 0
    accLo := Vector.replicate 8 0
    accHi := Vector.replicate 8 0
    synActive := true }.respond .ok)

/-- SYN_STOP (43 R187). -/
def execSynStop (s : State) : Host.Outcome State Fault Refusal :=
  .next ({ s with synActive := false }.respond .ok)

/-- SYN_READ (43 R195): the next sample, sign-extended, while the synthesizer runs; 0 and no change otherwise. -/
def execSynRead (s : State) : Host.Outcome State Fault Refusal :=
  if s.synActive then .next (s.advanceSynth.respond (.data ((BitVec.ofInt 16 s.synSample).signExtend 32)))
  else .next (s.respond (.data 0))

end Sys2Proof.Machine
end

