-- ==== Sys2Proof/Machine/Fft.lean ====
section
/-!
DEFINITION. The FFT engine (spec/40_fft.md): the transform, the FFT command and its completion. Also the acceptance that the four
analysis commands share (30 R113, R114).
-/

namespace Sys2Proof.Machine

/-! ## The transform (40 R132 to R135) -/

/-- A complex value, each component an integer (40 R132). -/
structure Cplx where
  re : Int
  im : Int
deriving DecidableEq, Repr

/-- `wrap32(v)` (00 R13). -/
def wrap32 (v : Int) : Int := (BitVec.ofInt 32 v).toInt

/-- The butterfly sum (40 R132, R135). -/
def Cplx.add (a b : Cplx) : Cplx := ⟨wrap32 (a.re + b.re), wrap32 (a.im + b.im)⟩

/-- The butterfly difference (40 R132, R135). -/
def Cplx.sub (a b : Cplx) : Cplx := ⟨wrap32 (a.re - b.re), wrap32 (a.im - b.im)⟩

/-- Round an exact product to nearest, ties toward plus infinity: `(v + 2^14) >> 15` (40 R134). -/
def roundProduct (v : Int) : Int := (v + 2 ^ 14) / 2 ^ 15

/-- The complex product `cmul(w, o)` (40 R134). -/
def cmul (w o : Cplx) : Cplx :=
  ⟨roundProduct (w.re * o.re - w.im * o.im), roundProduct (w.re * o.im + w.im * o.re)⟩

/-- The twiddle factor W(k, M) (40 R133). -/
def twiddle (k m : Nat) : Cplx :=
  let p := k * (4096 / m)
  ⟨sine (p + 1024), -sine p⟩

/-- The even-indexed subsequence (40 R132). -/
def evens : List Cplx → List Cplx
  | [] => []
  | [a] => [a]
  | a :: _ :: t => a :: evens t

/-- The odd-indexed subsequence (40 R132). -/
def odds : List Cplx → List Cplx
  | [] => []
  | [_] => []
  | _ :: b :: t => b :: odds t

/-- The products t for k = 0..M/2-1 of 40 R132, M = 2 * half. -/
def twiddled (half : Nat) (o : List Cplx) : List Cplx :=
  List.zipWith (fun k z => cmul (twiddle k (2 * half)) z) (List.range half) o

/-- The two halves of X: E + t below M/2, E - t from M/2 on (40 R132). -/
def butterflies (e t : List Cplx) : List Cplx :=
  List.zipWith Cplx.add e t ++ List.zipWith Cplx.sub e t

/-- The transform of a sequence of 2^l values (40 R132). -/
def fft : Nat → List Cplx → List Cplx
  | 0, a => a
  | l + 1, a => butterflies (fft l (evens a)) (twiddled (2 ^ l) (fft l (odds a)))

/-! ## The command -/

/-- The FFT's input: the effective window as complex values with imaginary part 0 (40 R131). -/
def State.fftInput (s : State) : List Cplx :=
  (List.range s.windowLength).map fun i => ⟨(s.xw i).toInt, 0⟩

/-- X of 40 R131. -/
def State.spectrum (s : State) : List Cplx := fft s.log2n.toNat s.fftInput

/-- The FFT completion state change (40 R131). -/
def completeFft (s : State) : State :=
  s.setSpec (s.spectrum.map fun z => (BitVec.ofInt 32 z.re, BitVec.ofInt 32 z.im))

/-- A CMD write of an analysis command: accepted when ENG is IDLE (30 R114), else ERR_BUSY (30 R113, 60 R252). -/
def State.startAnalysis (s : State) (c : Analysis) : State :=
  if s.isBusy then s.refuse .busy else { s with eng := .busy c }.respond .ok

/-- FFT (40 R130): the CMD write. Its effect is `completeFft`, at the completion step. -/
def execFft (s : State) : Host.Outcome State Fault Refusal := .next (s.startAnalysis .fft)

end Sys2Proof.Machine
end

