-- ==== Sys2Proof/Machine/Peaks.lean ====
section
/-!
DEFINITION. The spectral peak extractor (spec/41_peaks.md): the PEAKS command and its completion.
-/

namespace Sys2Proof.Machine

/-- A candidate bin with its exact squared magnitude (41 R151). -/
structure Candidate where
  mag : Nat
  bin : Nat
deriving DecidableEq, Repr

/-- The candidate ranks before (or is) the other: descending magnitude, ties by descending bin (41 R152). -/
abbrev Candidate.ranksBefore (a b : Candidate) : Prop := b.mag < a.mag ∨ (b.mag = a.mag ∧ b.bin ≤ a.bin)

/-- m(b) = SPEC[b].re^2 + SPEC[b].im^2, exact (41 R151). -/
def State.sqMag (s : State) (b : Nat) : Nat :=
  (s.specRe b).toInt.natAbs ^ 2 + (s.specIm b).toInt.natAbs ^ 2

/-- The candidates: bins 1..N/2-1 (41 R151). -/
def State.candidates (s : State) : List Candidate :=
  (List.range (s.windowLength / 2 - 1)).map fun i => ⟨s.sqMag (i + 1), i + 1⟩

/-- L of 41 R154: the candidates, strongest first (41 R152). -/
def State.ranked (s : State) : List Candidate :=
  s.candidates.insertionSort Candidate.ranksBefore

/-- freq_raw(b) = (b * FS) << (12 - CFG.LOG2N) (41 R153). -/
def State.freqRaw (s : State) (b : Nat) : Nat := (b * s.fs.toNat) * 2 ^ (12 - s.log2n.toNat)

/-- `min(K, N/2 - 1)` (41 R154, R155). -/
def State.slotCount (s : State) : Nat := min s.peakK.toNat (s.windowLength / 2 - 1)

/-- Slot j after PEAKS (41 R154). -/
def State.slot (s : State) (ranked : List Candidate) (j : Nat) : PeakSlot :=
  if j < s.slotCount then
    match ranked[j]? with
    | some c => ⟨BitVec.ofNat 12 c.bin, BitVec.ofNat 32 (s.freqRaw c.bin), BitVec.ofNat 64 c.mag⟩
    | none => PeakSlot.zero
  else PeakSlot.zero

/-- The PEAKS completion state change (41 R154). -/
def completePeaks (s : State) : State :=
  let ranked := s.ranked
  { s with
    peaks := vec8 fun j => s.slot ranked j.val
    peakCnt := BitVec.ofNat 4 s.slotCount }

/-- PEAKS (41 R150): the CMD write. Its effect is `completePeaks`, at the completion step. -/
def execPeaks (s : State) : Host.Outcome State Fault Refusal := .next (s.startAnalysis .peaks)

end Sys2Proof.Machine
end

