-- ==== Sys2Proof/Machine/Classify.lean ====
section
/-!
DEFINITION. The tone classifier (spec/42_classify.md): the CLASSIFY command and its completion.
-/

namespace Sys2Proof.Machine

/-- The best candidate of one position so far: its difference, the winning bit and the matched frequency (42 R167). -/
structure Match where
  diff : Nat
  bit : Bool
  freq : Word
deriving DecidableEq, Repr

/-- `|f - t|` on unbounded integers (42 R167). -/
def toneDiff (f t : Word) : Nat := ((f.toNat : Int) - (t.toNat : Int)).natAbs

/-- One test of the scan: accepted when the difference is below TOL and strictly below the best so far (42 R167). -/
def offerTone (tol : Word) (bit : Bool) (tone f : Word) (best : Option Match) : Option Match :=
  let d := toneDiff f tone
  match best with
  | none => if d < tol.toNat then some ⟨d, bit, f⟩ else none
  | some m => if d < tol.toNat ∧ d < m.diff then some ⟨d, bit, f⟩ else some m

/-- The tests of one frequency: the low tone before the high tone (42 R167). -/
def offerFreq (tol lo hi : Word) (best : Option Match) (f : Word) : Option Match :=
  offerTone tol true hi f (offerTone tol false lo f best)

/-- The detected frequencies in the order of the scan: PEAK_FREQ[0..PEAK_CNT-1], ascending (42 R166). -/
def State.detected (s : State) : List Word :=
  ((s.peaks.toList.take s.peakCnt.toNat).map PeakSlot.freq).insertionSort fun a b => a.toNat ≤ b.toNat

/-- classify_position(i) (42 R167): the winning match, none where no frequency is within tolerance (42 R169). -/
def State.classifyPosition (s : State) (i : Fin 8) : Option Match :=
  s.detected.foldl (offerFreq s.tol (s.toneLo.get i) (s.toneHi.get i)) none

/-- bit_i: 0 where nothing matched (42 R169). -/
def matchBit : Option Match → Bool
  | none => false
  | some m => m.bit

/-- The frequency MATCH_FREQ[i] takes: 0 where nothing matched (42 R169, R172). -/
def matchFreqOf : Option Match → Word
  | none => 0
  | some m => m.freq

/-- The byte with bit_i at bit 7 - i (42 R170, 30 R119). -/
def byteOfBits (bit : Fin 8 → Bool) : Byte :=
  BitVec.ofBool (bit 0) ++ BitVec.ofBool (bit 1) ++ BitVec.ofBool (bit 2) ++ BitVec.ofBool (bit 3) ++
  BitVec.ofBool (bit 4) ++ BitVec.ofBool (bit 5) ++ BitVec.ofBool (bit 6) ++ BitVec.ofBool (bit 7)

/-- RESULT.MATCHED, position i at bit i (42 R172). -/
def matchedBits (hit : Fin 8 → Bool) : Byte := byteOfBits fun i => hit i.rev

/-- The CLASSIFY completion state change (42 R172). -/
def completeClassify (s : State) : State :=
  { s with
    resByte := byteOfBits fun i => matchBit (s.classifyPosition i)
    resMatched := matchedBits fun i => (s.classifyPosition i).isSome
    resValid := true
    resDropped := false
    matchFreq := vec8 fun i => matchFreqOf (s.classifyPosition i) }

/-- CLASSIFY (42 R165): the CMD write. Its effect is `completeClassify`, at the completion step. -/
def execClassify (s : State) : Host.Outcome State Fault Refusal := .next (s.startAnalysis .classify)

end Sys2Proof.Machine
end

