-- ==== Sys2Proof/Machine/Window.lean ====
section
/-!
DEFINITION. The window buffer and the DECODE sequencer (spec/44_window_decode.md): WIN_PUSH, WIN_CLEAR, DECODE and its completion.
-/

namespace Sys2Proof.Machine

/-- WIN_PUSH (44 R211, R212): the interlock first, then the full window (60 R260). -/
def execWinPush (v : Word) (s : State) : Host.Outcome State Fault Refusal :=
  if s.isBusy then .next (s.refuse .busy)
  else if s.windowLength ≤ s.winCount.toNat then .next (s.refuse .ovf)
  else
    .next ({ s.setWin s.winCount.toNat (v.extractLsb' 0 16) with winCount := s.winCount + 1 }.respond .ok)

/-- WIN_CLEAR (44 R213). -/
def execWinClear (s : State) : Host.Outcome State Fault Refusal :=
  if s.isBusy then .next (s.refuse .busy) else .next ({ s with winCount := 0 }.respond .ok)

/-- RESULT of a dropped window (44 R217, R218). -/
def State.dropWindow (s : State) : State :=
  { s with resByte := 0, resMatched := 0, resValid := false, resDropped := true }

/-- The DECODE completion state change (44 R217): drop, or transform, extract and classify; the window is consumed either
way (44 R219). -/
def completeDecode (s : State) : State :=
  let s' :=
    if s.winCount.toNat < s.minSamples.toNat then s.dropWindow
    else completeClassify (completePeaks (completeFft s))
  { s' with winCount := 0 }

/-- DECODE (44 R216): the CMD write. Its effect is `completeDecode`, at the completion step. -/
def execDecode (s : State) : Host.Outcome State Fault Refusal := .next (s.startAnalysis .decode)

end Sys2Proof.Machine
end

