-- ==== Sys2Proof/Machine/Dispatch.lean ====
section
/-!
DEFINITION. One arm per instruction (spec/opcode_table.json).
-/

namespace Sys2Proof.Machine

def exec (i : Instr) (s : State) : Host.Outcome State Fault Refusal :=
  match i with
  | .nop => Sys2Proof.Machine.execNop s
  | .winClear => Sys2Proof.Machine.execWinClear s
  | .fft => Sys2Proof.Machine.execFft s
  | .peaks => Sys2Proof.Machine.execPeaks s
  | .classify => Sys2Proof.Machine.execClassify s
  | .decode => Sys2Proof.Machine.execDecode s
  | .synStart => Sys2Proof.Machine.execSynStart s
  | .synStop => Sys2Proof.Machine.execSynStop s
  | .softReset => Sys2Proof.Machine.execSoftReset s
  | .winPush v => Sys2Proof.Machine.execWinPush v s
  | .synRead => Sys2Proof.Machine.execSynRead s
  | .statusW1c v => Sys2Proof.Machine.execStatusW1c v s

end Sys2Proof.Machine
end

