-- ==== Sys2Proof/Machine/Agents.lean ====
section
/-!
DEFINITION. The moves of the agents (20 R93): the host's access (20 R97), the ENGINE's completion step (20 R95, R101) and the
reset input (70 R280), and how a word of the opcode table is presented to the core.
-/

namespace Sys2Proof.Machine

/-- The state change of the command's completion (20 R101). -/
def completionOf (c : Analysis) (s : State) : State :=
  match c with
  | .fft => completeFft s
  | .peaks => completePeaks s
  | .classify => completeClassify s
  | .decode => completeDecode s

/-- The ENGINE completion step (20 R101): the state change, then DONE, then IDLE. -/
def State.complete (s : State) (c : Analysis) : State := { completionOf c s with done := true, eng := .idle }

/-- A turn of the ENGINE: its step is enabled exactly when ENG is BUSY(c) (20 R95); otherwise the turn changes nothing. -/
def State.engineTurn (s : State) : State :=
  match s.eng with
  | .idle => s
  | .busy c => s.complete c

/-- One host access, one atomic step (20 R88, R97). -/
def hostAccess (a : Access) (s : State) : Host.Outcome State Fault Refusal :=
  match Sys2Proof.decode a with
  | .instr i => exec i s
  | .load r => .next (s.load r)
  | .store r v => .next (s.store r v)
  | .rejected why => .next (s.reject why)

/-- The move of an agent. -/
def perform (e : Input) (s : State) : Host.Outcome State Fault Refusal :=
  match e with
  | .host a => hostAccess a s
  | .engine => .next s.engineTurn
  | .resetPin => .next s.resetCore

/-- The next move: the first pending input is taken; with none pending a BUSY engine completes, which is what weak fairness
(20 R95) asks for, and an idle core waits for host accesses (70 R281). -/
def takeTurn (s : State) : Host.Outcome State Fault Refusal :=
  match s.inputs with
  | [] => .next s.engineTurn
  | e :: rest => perform e { s with inputs := rest }

/-- The access of a table word, put before every pending input (log 1, log 10). -/
def State.present (s : State) (nbits w : Nat) : State :=
  match accessOfTableWord nbits w with
  | some a => { s with inputs := .host a :: s.inputs }
  | none => s

end Sys2Proof.Machine
end

