-- ==== Sys2Proof/Machine/Step.lean ====
section
/-!
DEFINITION. One step of the machine: one move of one agent (20 R93, R97), and the placing of an instruction where the next step
takes it.
-/

namespace Sys2Proof.Machine

/-- One step: the next agent's move (20 R93, R95, R97). -/
def step (s : State) : Host.Outcome State Fault Refusal := takeTurn s

/-- The state in which the very next step performs the access of a table word (log 1). -/
def State.withFetchWord (s : State) (nbits w : Nat) : State := s.present nbits w

end Sys2Proof.Machine
end

