-- ==== Sys2Proof/Safety.lean ====
section
/-!
DEFINITION. The terms the claims use: the legal states (the invariants of spec/10_state.md), what a frame leaves alone, the move a
step takes, and a second form of the transform to compare with (40 R140).
-/

namespace Sys2Proof.Safety

open Sys2Proof.Machine

/-! ## Legal states -/

/-- Every configuration register holds a legal value (10 R26 to R35, R39), and WIN_COUNT <= N (10 R31). -/
structure LegalRegs (s : State) : Prop where
  log2n_lo : 3 ≤ s.log2n.toNat
  log2n_hi : s.log2n.toNat ≤ 12
  peakK_lo : 1 ≤ s.peakK.toNat
  peakK_hi : s.peakK.toNat ≤ 8
  fs_lo : 1 ≤ s.fs.toNat
  symLen_lo : 1 ≤ s.symLen.toNat
  synLen_hi : s.synLen.toNat ≤ 256
  ampl_hi : s.ampl.toNat ≤ 0x8000
  irqEn_mask : s.irqEn &&& 0x000000F2#32 = s.irqEn
  winCount_hi : s.winCount.toNat ≤ s.windowLength
  peakCnt_hi : s.peakCnt.toNat ≤ 8

/-- The offsets at which the RAMs have a byte: MSG one lane, WIN two lanes, SPEC all lanes (20 R81). -/
def RamOffset (a : Nat) : Prop :=
  (0x1000 ≤ a ∧ a < 0x1400 ∧ a % 4 = 0) ∨ (0x4000 ≤ a ∧ a < 0x8000 ∧ a % 4 < 2) ∨ (0x8000 ≤ a ∧ a < 0x10000)

/-- Memory is in canonical form and lists bytes of the three RAMs only. -/
structure LegalMem (s : State) : Prop where
  wf : s.mem.wf = true
  ram : ∀ c ∈ s.mem, RamOffset c.1

/-- While the synthesizer runs, every accumulator is SYN_POS times its tuning word (10 R47). -/
def PhaseLaw (s : State) : Prop :=
  s.synActive = true → ∀ (i : Fin 8) (v : Bool), s.acc i v = s.synPos * s.ftw i v

/-- The peak slots: those at or beyond PEAK_CNT are empty (10 R42), and those below it hold bins that are pairwise different
(41 R156), ordered by descending magnitude, ties by descending bin (41 R157). -/
structure PeaksOrdered (s : State) : Prop where
  empty : ∀ j : Fin 8, s.peakCnt.toNat ≤ j.val → s.peaks.get j = PeakSlot.zero
  ordered : ∀ j k : Fin 8, j.val < k.val → k.val < s.peakCnt.toNat →
    (s.peaks.get k).mag < (s.peaks.get j).mag ∨
      ((s.peaks.get k).mag = (s.peaks.get j).mag ∧ (s.peaks.get k).bin < (s.peaks.get j).bin)

/-! ## Frames: what t leaves as it is in s -/

/-- The configuration registers (10 R26 to R30, R33 to R35, R40). -/
structure SameConfig (s t : State) : Prop where
  irqEn : t.irqEn = s.irqEn
  log2n : t.log2n = s.log2n
  peakK : t.peakK = s.peakK
  fs : t.fs = s.fs
  tol : t.tol = s.tol
  minSamples : t.minSamples = s.minSamples
  symLen : t.symLen = s.symLen
  synLen : t.synLen = s.synLen
  ampl : t.ampl = s.ampl
  toneLo : t.toneLo = s.toneLo
  toneHi : t.toneHi = s.toneHi

/-- The four sticky error flags (10 R25). -/
structure SameErrors (s t : State) : Prop where
  illegal : t.errIllegal = s.errIllegal
  busy : t.errBusy = s.errBusy
  ovf : t.errOvf = s.errOvf
  bus : t.errBus = s.errBus

/-- The peak registers (10 R39, R42). -/
structure SamePeaks (s t : State) : Prop where
  cnt : t.peakCnt = s.peakCnt
  slots : t.peaks = s.peaks

/-- RESULT and MATCH_FREQ (10 R38, R43). -/
structure SameResult (s t : State) : Prop where
  byte : t.resByte = s.resByte
  matched : t.resMatched = s.resMatched
  valid : t.resValid = s.resValid
  dropped : t.resDropped = s.resDropped
  matchFreq : t.matchFreq = s.matchFreq

/-- The synthesizer's own state (10 R25, R36, R47). -/
structure SameSynth (s t : State) : Prop where
  active : t.synActive = s.synActive
  pos : t.synPos = s.synPos
  accLo : t.accLo = s.accLo
  accHi : t.accHi = s.accHi

/-- Every byte of memory reads as before (10 R44 to R46). -/
def SameRam (s t : State) : Prop := ∀ a : Nat, t.ramByte a = s.ramByte a

/-- What is not the core's: the pending inputs and the count of drawn values. -/
structure SameOutside (s t : State) : Prop where
  inputs : t.inputs = s.inputs
  draws : t.draws = s.draws

/-- The engine and DONE (10 R20, R25). -/
structure SameEngine (s t : State) : Prop where
  eng : t.eng = s.eng
  done : t.done = s.done

/-- Everything but ENG, DONE, the error flags and the bus answer. -/
structure SameData (s t : State) : Prop where
  config : SameConfig s t
  peaks : SamePeaks s t
  result : SameResult s t
  synth : SameSynth s t
  winCount : t.winCount = s.winCount
  ram : SameRam s t
  outside : SameOutside s t

/-- One error flag is raised and nothing else changes but the bus answer (60 R250). -/
structure OnlyRaises (f : ErrFlag) (s t : State) : Prop where
  illegal : t.errIllegal = (s.errIllegal || decide (f = .illegal))
  busy : t.errBusy = (s.errBusy || decide (f = .busy))
  ovf : t.errOvf = (s.errOvf || decide (f = .ovf))
  bus : t.errBus = (s.errBus || decide (f = .bus))
  engine : SameEngine s t
  data : SameData s t

/-- The error flag goes from 0 to 1 (60 R258). -/
def Rises (f : ErrFlag) (s t : State) : Prop :=
  match f with
  | .illegal => s.errIllegal = false ∧ t.errIllegal = true
  | .busy => s.errBusy = false ∧ t.errBusy = true
  | .ovf => s.errOvf = false ∧ t.errOvf = true
  | .bus => s.errBus = false ∧ t.errBus = true

/-! ## Moves -/

/-- The move the next step takes: the first pending input, or a turn of the ENGINE when none is pending (20 R95). -/
def moveOf (s : State) : Input := s.inputs.headD .engine

/-- A CMD write of v (30 R110). -/
def cmdWrite (v : Word) : Access := .write 0x008#16 4 v

/-- The move is a reset: the reset input or the SOFT_RESET command (70 R280). -/
def IsReset (e : Input) : Prop := e = .resetPin ∨ e = .host (cmdWrite 0x00000008#32)

/-- The move is a STATUS write with 1 in bit b (45 R233). -/
def ClearsBit (b : Nat) (e : Input) : Prop := ∃ v : Word, e = .host (.write 0x00C#16 4 v) ∧ v.getLsbD b = true

/-- The move completes the command c (20 R101). -/
def Completes (c : Analysis) (s : State) (e : Input) : Prop := e = .engine ∧ s.eng = .busy c

/-! ## Values the rules name -/

/-- The exact squared magnitude of bin b (41 R151). -/
def exactSqMag (s : State) (b : Nat) : Int := (s.specRe b).toInt ^ 2 + (s.specIm b).toInt ^ 2

/-- The frequencies that CLASSIFY scans: the slots below PEAK_CNT (42 R166). -/
def Detected (s : State) (f : Word) : Prop := ∃ j : Fin 8, j.val < s.peakCnt.toNat ∧ (s.peaks.get j).freq = f

/-- `|f - t|` on unbounded integers (42 R167). -/
def distance (f t : Word) : Int := |(f.toNat : Int) - (t.toNat : Int)|

/-- The word a read-write register reads back after an accepted write of v (45 R236, R238), in numbers; none for a register
that is no read-write register. -/
def legalised (v : Word) : Reg → Option Nat
  | .irqEn => some (v &&& 0x000000F2#32).toNat
  | .cfg => some (min (max (v.toNat / 256 % 16) 1) 8 * 256 + min (max (v.toNat % 16) 3) 12)
  | .fs => some (max (v.toNat % 2 ^ 18) 1)
  | .tol => some v.toNat
  | .minSamples => some (v.toNat % 2 ^ 13)
  | .symLen => some (max (v.toNat % 2 ^ 24) 1)
  | .synLen => some (min (v.toNat % 2 ^ 9) 256)
  | .ampl => some (min (v.toNat % 2 ^ 17) 32768)
  | .toneLo _ => some v.toNat
  | .toneHi _ => some v.toNat
  | .msg _ => some (v.toNat % 256)
  | .id | .param | .cmd | .status | .winCount | .winData | .synPos | .synData | .result | .peakCnt | .peakBin _
  | .peakFreq _ | .peakMagLo _ | .peakMagHi _ | .matchFreq _ | .winView _ | .specRe _ | .specIm _ => none

/-- A store of the register is refused: the table of 60 R252, condition by condition (commands and WIN_DATA writes are
instructions and no stores). -/
def Interlocked (s : State) (r : Reg) : Prop :=
  (s.eng ≠ .idle ∧ (r = .cfg ∨ r = .fs ∨ r = .tol ∨ r = .minSamples ∨ (∃ i, r = .toneLo i) ∨ ∃ i, r = .toneHi i)) ∨
  (s.synActive = true ∧ (r = .fs ∨ (∃ i, r = .toneLo i) ∨ (∃ i, r = .toneHi i) ∨ r = .symLen ∨ r = .synLen ∨ r = .ampl ∨
    ∃ i, r = .msg i))

/-- The word a plain read of a register gives, as a number built from the spec's fields (10 R22 to R46; 20 R85, R89 to R91;
45 R237). SYN_DATA, whose read is no plain one, stands with 0. -/
def wordOf (s : State) : Reg → Nat
  | .id => 0x41544331
  | .param => 0x0100C83C
  | .cmd => 0
  | .winData => 0
  | .status =>
    (if s.eng = .idle then 0 else 1) + 2 * s.done.toNat + 16 * s.errIllegal.toNat + 32 * s.errBusy.toNat +
      64 * s.errOvf.toNat + 128 * s.errBus.toNat + 256 * s.synActive.toNat +
      (if s.symLen.toNat * s.synLen.toNat ≤ s.synPos.toNat then 512 else 0)
  | .irqEn => s.irqEn.toNat
  | .cfg => s.peakK.toNat * 256 + s.log2n.toNat
  | .fs => s.fs.toNat
  | .tol => s.tol.toNat
  | .minSamples => s.minSamples.toNat
  | .winCount => s.winCount.toNat
  | .symLen => s.symLen.toNat
  | .synLen => s.synLen.toNat
  | .ampl => s.ampl.toNat
  | .synPos => s.synPos.toNat
  | .synData => 0
  | .result =>
    s.resByte.toNat + 256 * s.resMatched.toNat + 65536 * s.resValid.toNat + 131072 * s.resDropped.toNat
  | .peakCnt => s.peakCnt.toNat
  | .toneLo i => (s.toneLo.get i).toNat
  | .toneHi i => (s.toneHi.get i).toNat
  | .peakBin j => (s.peaks.get j).bin.toNat
  | .peakFreq j => (s.peaks.get j).freq.toNat
  | .peakMagLo j => (s.peaks.get j).mag.toNat % 2 ^ 32
  | .peakMagHi j => (s.peaks.get j).mag.toNat / 2 ^ 32
  | .matchFreq i => (s.matchFreq.get i).toNat
  | .msg i => (s.ramByte (0x1000 + 4 * i.val)).toNat
  | .winView i => if i.val < s.winCount.toNat then ((s.win i.val).toInt % 2 ^ 32).toNat else 0
  | .specRe k => (s.specRe k.val).toNat
  | .specIm k => (s.specIm k.val).toNat

/-- The register is an output of the command c, as the table of 20 R99 lists them (logs 6 and 7). -/
def OutputReg (s : State) (c : Analysis) (r : Reg) : Prop :=
  ((c = .fft ∨ c = .decode) ∧ ∃ k : Fin 4096, k.val < 2 ^ s.log2n.toNat ∧ (r = .specRe k ∨ r = .specIm k)) ∨
  ((c = .peaks ∨ c = .decode) ∧
    (r = .peakCnt ∨ ∃ j, r = .peakBin j ∨ r = .peakFreq j ∨ r = .peakMagLo j ∨ r = .peakMagHi j)) ∨
  ((c = .classify ∨ c = .decode) ∧ (r = .result ∨ ∃ i, r = .matchFreq i)) ∨
  (c = .decode ∧ (r = .winCount ∨ ∃ i, r = .winView i))

/-- The read-only registers that a plain store can address (20 R85). -/
def readOnly : Reg → Bool
  | .id | .param | .winCount | .synPos | .synData | .result | .peakCnt | .peakBin _ | .peakFreq _ | .peakMagLo _
  | .peakMagHi _ | .matchFreq _ | .winView _ | .specRe _ | .specIm _ => true
  | _ => false

/-! ## The in-place iterative transform (40 R140) -/

/-- The input in bit-reversed order. -/
def bitReversed : Nat → List Cplx → List Cplx
  | 0, a => a
  | l + 1, a => bitReversed l (evens a) ++ bitReversed l (odds a)

/-- The butterflies of one block of size M = 2 * half (40 R132). -/
def blockButterflies (half : Nat) (b : List Cplx) : List Cplx :=
  butterflies (b.take half) (twiddled half (b.drop half))

/-- One stage: the butterflies of every one of `n` consecutive blocks of size 2 * half. -/
def stage (half : Nat) : Nat → List Cplx → List Cplx
  | 0, _ => []
  | n + 1, a => blockButterflies half (a.take (2 * half)) ++ stage half n (a.drop (2 * half))

/-- The stages M = 2, 4, ..., 2^l over 2^(r) blocks of the last size. -/
def stages : Nat → Nat → List Cplx → List Cplx
  | 0, _, a => a
  | l + 1, r, a => stage (2 ^ l) (2 ^ r) (stages l (r + 1) a)

/-- The iterative form: bit-reversed order, then the stages M = 2, 4, ..., N (40 R140). -/
def iterativeFft (l : Nat) (a : List Cplx) : List Cplx := stages l 0 (bitReversed l a)

end Sys2Proof.Safety
end

