-- ==== Sys2Proof/Certificates/Slice0/Obligations.lean ====
section
/-!
DEFINITION. The statements for the provers. Each docstring names the rules of spec/ it formalises; OBLIGATIONS.json lists them.
-/

open Sys2Proof Sys2Proof.Machine Sys2Proof.Safety

/-! ## Encoding -/

/-- 30 R112, R113, R117: an access is an instruction exactly when it is that instruction's own access. -/
def Obligations.DecodeInvertsEncode : Prop :=
  ∀ (a : Access) (i : Instr), decode a = .instr i ↔ a = encode i

/-- 30 R113, R115, R116: every value written to CMD is one of nine commands by its CODE, or illegal by name. -/
def Obligations.CommandWordsDecodeByCode : Prop :=
  ∀ v : Word,
    (∀ i, [Instr.nop, .winClear, .fft, .peaks, .classify, .decode, .synStart, .synStop, .softReset][v.toNat]? = some i →
      decode (cmdWrite v) = .instr i) ∧
    (9 ≤ v.toNat → v.toNat < 16 → decode (cmdWrite v) = .rejected .reservedCode) ∧
    (16 ≤ v.toNat → decode (cmdWrite v) = .rejected .reservedBits)

/-- 20 R81: every register has its own aligned offset, every mapped aligned offset is some register's, and the aligned offsets that
name no register are the listed unmapped ones. -/
def Obligations.AddressMapIsExact : Prop :=
  (∀ r : Reg, r.offset.toNat % 4 = 0 ∧ regAt r.offset = some r) ∧
  ∀ off : Offset, off.toNat % 4 = 0 →
    (∀ r, regAt off = some r → off = r.offset) ∧
    (regAt off = none ↔
      off.toNat = 0x02C ∨ (0x044 ≤ off.toNat ∧ off.toNat ≤ 0x04C) ∨ (0x058 ≤ off.toNat ∧ off.toNat ≤ 0x0FC) ∨
      (0x140 ≤ off.toNat ∧ off.toNat ≤ 0x1FC) ∨ (0x280 ≤ off.toNat ∧ off.toNat ≤ 0x2FC) ∨
      (0x320 ≤ off.toNat ∧ off.toNat ≤ 0xFFC) ∨ (0x1400 ≤ off.toNat ∧ off.toNat ≤ 0x3FFC))

/-- 30 R112, R117, R120: words of the opcode table, written out from the spec, decode to the instructions they stand for. -/
def Obligations.SampleWordsDecode : Prop :=
  decodeTableWord 32 0x00000005 = some .decode ∧
  decodeTableWord 32 0x00000008 = some .softReset ∧
  decodeTableWord 32 0x00000010 = none ∧
  decodeTableWord 32 0x00000009 = none ∧
  decodeTableWord 16 0x0028 = some (.winPush 0) ∧
  decodeTableWord 16 0x0040 = some .synRead ∧
  decodeTableWord 16 0x000C = some (.statusW1c 0) ∧
  decodeTableWord 48 0x000003E80028 = some (.winPush 1000) ∧
  decode (.write 0x008#16 4 0x00000006#32) = .instr .synStart ∧
  decode (.read 0x00C#16 4) = .load .status

/-! ## The step -/

/-- 20 R93, R97; 30 R113: when the next input is an access that decodes to an instruction, the step is exec of it on the state
without that input; and a table word placed by withFetchWord is the access the next step performs (log 1, log 10). -/
def Obligations.StepRunsDecodedInstruction : Prop :=
  (∀ (s : State) (a : Access) (rest : List Input) (i : Instr), s.inputs = .host a :: rest → decode a = .instr i →
    step s = exec i { s with inputs := rest }) ∧
  (∀ (s : State) (nbits w : Nat) (a : Access), accessOfTableWord nbits w = some a →
    step (s.withFetchWord nbits w) = hostAccess a s) ∧
  (∀ (s : State) (nbits w : Nat) (i : Instr), decodeTableWord nbits w = some i →
    step (s.withFetchWord nbits w) = exec i s)

/-- 70 R290; 60 R250, R256: every state has a next state: no access, no completion and no reset stops the core, and each step takes
exactly the first pending input. -/
def Obligations.EveryStepAnswersNext : Prop :=
  ∀ s : State, ∃ t, step s = .next t ∧ t.inputs = s.inputs.tail

/-- 20 R95, R101: the ENGINE step is enabled exactly when ENG is BUSY(c); it performs c's state change, sets DONE and returns to
IDLE. A pending turn takes it, and with nothing pending it is taken next (log 2). -/
def Obligations.EngineStepCompletesCommand : Prop :=
  ∀ (s : State) (rest : List Input), (s.inputs = .engine :: rest ∨ (s.inputs = [] ∧ rest = [])) →
    (∀ c, s.eng = .busy c → ∃ t, step s = .next t ∧ t.eng = .idle ∧ t.done = true ∧
      t = { completionOf c { s with inputs := rest } with eng := .idle, done := true }) ∧
    (s.eng = .idle → step s = .next { s with inputs := rest })

/-! ## Invariants -/

/-- 10 R26 to R42, R47, R50: the reset state is legal. That its memory is canonical and lists RAM bytes only (here: none) rests on
the model's representation of the RAMs, a DESIGN CHOICE (log 5), as 10 R44 to R46 leave their contents after power-on open. -/
def Obligations.ResetStateIsLegal : Prop :=
  LegalRegs State.reset ∧ LegalMem State.reset ∧ PhaseLaw State.reset ∧ PeaksOrdered State.reset

/-- 10 R26 to R35 (legal values), R31 (WIN_COUNT <= N at all times): every step keeps the registers legal. -/
def Obligations.StepKeepsRegistersLegal : Prop :=
  ∀ s t : State, LegalRegs s → step s = .next t → LegalRegs t

/-- 10 R44 to R46: every step keeps memory canonical and inside the three RAMs. -/
def Obligations.StepKeepsMemoryLegal : Prop :=
  ∀ s t : State, LegalRegs s → LegalMem s → step s = .next t → LegalMem t

/-- 10 R47: `ACC[i][v] = u32(SYN_POS * FTW[i][v])` holds whenever SYN_ACTIVE is 1. -/
def Obligations.StepKeepsPhaseLaw : Prop :=
  ∀ s t : State, PhaseLaw s → step s = .next t → PhaseLaw t

/-- 41 R152, R154, R156; 10 R42: every step keeps the peak slots ordered, different and empty beyond PEAK_CNT. -/
def Obligations.StepKeepsPeaksOrdered : Prop :=
  ∀ s t : State, LegalRegs s → PeaksOrdered s → step s = .next t → PeaksOrdered t

/-! ## Rules of the whole machine -/

/-- 60 R258, 10 R25: a sticky flag (DONE and the four error flags) stays 1 but for a STATUS write with 1 in its bit, SOFT_RESET
or reset. -/
def Obligations.StickyFlagsClearedOnlyByHost : Prop :=
  ∀ s t : State, step s = .next t → ¬ IsReset (moveOf s) →
    (s.done = true → ¬ ClearsBit 1 (moveOf s) → t.done = true) ∧
    (s.errIllegal = true → ¬ ClearsBit 4 (moveOf s) → t.errIllegal = true) ∧
    (s.errBusy = true → ¬ ClearsBit 5 (moveOf s) → t.errBusy = true) ∧
    (s.errOvf = true → ¬ ClearsBit 6 (moveOf s) → t.errOvf = true) ∧
    (s.errBus = true → ¬ ClearsBit 7 (moveOf s) → t.errBus = true)

/-- 60 R260, R250: one host access raises at most one error flag, and an access that raises one has no other effect. -/
def Obligations.AtMostOneErrorPerAccess : Prop :=
  ∀ (s t : State) (a : Access), hostAccess a s = .next t →
    (∀ f g, Rises f s t → Rises g s t → f = g) ∧ (∀ f, Rises f s t → OnlyRaises f s t)

/-- 43 R186: SYN_ACTIVE is set only by SYN_START and cleared only by SYN_STOP, SOFT_RESET and reset. -/
def Obligations.SynActiveChangesOnlyByCommand : Prop :=
  ∀ s t : State, step s = .next t →
    (s.synActive = false → t.synActive = true → moveOf s = .host (cmdWrite 0x00000006#32)) ∧
    (s.synActive = true → t.synActive = false →
      moveOf s = .host (cmdWrite 0x00000007#32) ∨ IsReset (moveOf s))

/-- 10 R38, R39, R42, R43: RESULT and MATCH_FREQ change only by the completion of CLASSIFY or DECODE or by reset, and the peak
registers only by the completion of PEAKS or DECODE or by reset. -/
def Obligations.ResultsWrittenOnlyByCompletions : Prop :=
  ∀ s t : State, step s = .next t → ¬ IsReset (moveOf s) → ¬ Completes .decode s (moveOf s) →
    (¬ Completes .classify s (moveOf s) → SameResult s t) ∧
    (¬ Completes .peaks s (moveOf s) → SamePeaks s t)

/-- 10 R31: WIN_COUNT is written only by WIN_DATA pushes, WIN_CLEAR, a CFG write that changes LOG2N, DECODE and reset. -/
def Obligations.WinCountWrittenOnlyByItsWriters : Prop :=
  ∀ s t : State, step s = .next t → t.winCount ≠ s.winCount →
    (∃ v : Word, moveOf s = .host (.write 0x028#16 4 v)) ∨
    moveOf s = .host (cmdWrite 0x00000001#32) ∨
    ((∃ v : Word, moveOf s = .host (.write 0x014#16 4 v)) ∧ t.log2n ≠ s.log2n) ∨
    Completes .decode s (moveOf s) ∨
    IsReset (moveOf s)

/-- 10 R44 to R46, 20 R87: a RAM byte changes only by a write of its own MSG word, by a push at WIN[WIN_COUNT], or by the
completion of FFT or DECODE within SPEC[0..N-1]; reset changes none (70 R282). -/
def Obligations.RamWrittenOnlyByItsWriters : Prop :=
  ∀ (s t : State) (a : Nat), step s = .next t → t.ramByte a ≠ s.ramByte a →
    (∃ (i : Fin 256) (v : Word), moveOf s = .host (.write (Reg.msg i).offset 4 v) ∧ s.synActive = false ∧
      a = 0x1000 + 4 * i.val) ∨
    (∃ v : Word, moveOf s = .host (.write 0x028#16 4 v) ∧ s.eng = .idle ∧
      (a = 0x4000 + 4 * s.winCount.toNat ∨ a = 0x4001 + 4 * s.winCount.toNat)) ∨
    ((Completes .fft s (moveOf s) ∨ Completes .decode s (moveOf s)) ∧ 0x8000 ≤ a ∧ a < 0x8000 + 8 * s.windowLength)

/-- 20 R101, 60 R252: no host access that leaves the command BUSY changes what the command will publish, so every interleaving of
host accesses with the completion gives the same outputs. -/
def Obligations.BusyCommandOutputsAreFixed : Prop :=
  ∀ (s t : State) (c : Analysis) (a : Access), s.eng = .busy c → hostAccess a s = .next t → t.eng ≠ .idle →
    t.eng = .busy c ∧
    SameResult (s.complete c) (t.complete c) ∧ SamePeaks (s.complete c) (t.complete c) ∧
    (t.complete c).winCount = (s.complete c).winCount ∧
    (∀ k, (t.complete c).specRe k = (s.complete c).specRe k ∧ (t.complete c).specIm k = (s.complete c).specIm k) ∧
    (∀ i, (t.complete c).xw i = (s.complete c).xw i)

/-! ## Errors -/

/-- 20 R82, R83: an access with size other than 4, at an offset no multiple of 4, or at an unmapped offset gets the error response,
sets ERR_BUS and changes nothing else. -/
def Obligations.BadBusAccessSetsOnlyErrBus : Prop :=
  ∀ (s : State) (a : Access), (a.size ≠ 4 ∨ a.off.toNat % 4 ≠ 0 ∨ a.off.unmapped = true) →
    ∃ t, hostAccess a s = .next t ∧ t.response = .error ∧ t.errBus = true ∧ OnlyRaises .bus s t

/-- 30 R115, R116: nine values are commands; every other value, whatever its CODE and whatever ENG is, sets ERR_ILLEGAL and has no
other effect. -/
def Obligations.IllegalCommandSetsOnlyErrIllegal : Prop :=
  ∀ (s : State) (v : Word),
    (v.toNat < 9 → ∃ i, decode (cmdWrite v) = .instr i) ∧
    (9 ≤ v.toNat → ∃ t, hostAccess (cmdWrite v) s = .next t ∧ t.response = .ok ∧ t.errIllegal = true ∧
      OnlyRaises .illegal s t)

/-- 60 R252, 30 R113: while ENG is BUSY the four analysis commands, WIN_CLEAR and WIN_DATA writes are refused with ERR_BUSY and have
no other effect; a full window does not change that (60 R260). -/
def Obligations.BusyEngineRefusesCommands : Prop :=
  ∀ (s : State) (c : Analysis) (i : Instr), s.eng = .busy c →
    (i = .fft ∨ i = .peaks ∨ i = .classify ∨ i = .decode ∨ i = .winClear ∨ ∃ v, i = .winPush v) →
    ∃ t, exec i s = .next t ∧ t.response = .ok ∧ t.errBusy = true ∧ OnlyRaises .busy s t

/-- 60 R252: the stores refused while ENG is BUSY, and those refused while SYN_ACTIVE is 1, set ERR_BUSY and have no other
effect. -/
def Obligations.InterlockedStoresAreRefused : Prop :=
  ∀ (s : State) (r : Reg) (v : Word), Interlocked s r →
    ∃ t, hostAccess (.write r.offset 4 v) s = .next t ∧ t.response = .ok ∧ t.errBusy = true ∧ OnlyRaises .busy s t

/-! ## Plain register accesses -/

/-- 45 R237, 20 R87, R99: a plain read changes nothing but the bus answer (and the model's count of draws); it answers the word the
register's fields give (10 R22 to R46), or a free value when the register is an output of the command ENG is BUSY with
(logs 6 and 7). -/
def Obligations.LoadAnswersRegisterOrAny : Prop :=
  ∀ (s : State) (r : Reg), r ≠ .synData →
    ∃ t, hostAccess (.read r.offset 4) s = .next t ∧ SameEngine s t ∧ SameErrors s t ∧ SameConfig s t ∧ SamePeaks s t ∧
      SameResult s t ∧ SameSynth s t ∧ t.winCount = s.winCount ∧ SameRam s t ∧ t.inputs = s.inputs ∧
      ((∃ c, s.eng = .busy c ∧ OutputReg s c r) → t.response = .data (Config.anyWord s.draws) ∧ t.draws = s.draws + 1) ∧
      (¬ (∃ c, s.eng = .busy c ∧ OutputReg s c r) →
        (∃ w : Word, t.response = .data w ∧ w.toNat = wordOf s r) ∧ t.draws = s.draws)

/-- 45 R237, 10 R25: a STATUS read, whatever the state, answers a word with these bits; the reserved bits are 0. -/
def Obligations.StatusWordBits : Prop :=
  ∀ s : State, ∃ t w, hostAccess (.read 0x00C#16 4) s = .next t ∧ t.response = .data w ∧ w = s.statusWord ∧
    w.getLsbD 0 = decide (s.eng ≠ .idle) ∧ w.getLsbD 1 = s.done ∧
    w.getLsbD 4 = s.errIllegal ∧ w.getLsbD 5 = s.errBusy ∧
    w.getLsbD 6 = s.errOvf ∧ w.getLsbD 7 = s.errBus ∧
    w.getLsbD 8 = s.synActive ∧
    w.getLsbD 9 = decide (s.symLen.toNat * s.synLen.toNat ≤ s.synPos.toNat) ∧
    w &&& 0xFFFFFC0C#32 = 0#32

/-- 45 R238, R236; 10 R27 to R35; 60 R252: every write of a read-write register that the interlock table does not refuse is
accepted, and a read after it returns the legalised value, whatever the state. -/
def Obligations.StoreThenLoadReturnsLegalised : Prop :=
  ∀ (s : State) (r : Reg) (v : Word) (n : Nat), legalised v r = some n → ¬ Interlocked s r →
    ∃ t u, hostAccess (.write r.offset 4 v) s = .next t ∧ t.response = .ok ∧ SameErrors s t ∧
      hostAccess (.read r.offset 4) t = .next u ∧ u.response = .data (BitVec.ofNat 32 n) ∧ n < 2 ^ 32

/-- 20 R87, 45 R236, 60 R252: a write of a read-write register that the interlock table does not refuse changes no other register,
no flag, no accumulator and no memory byte but MSG[i]'s own; a CFG write may also change WIN_COUNT. -/
def Obligations.StoreChangesOnlyItsRegister : Prop :=
  ∀ (s : State) (r : Reg) (v : Word), (legalised v r).isSome = true → ¬ Interlocked s r →
    ∃ t, hostAccess (.write r.offset 4 v) s = .next t ∧ t.response = .ok ∧
      SameEngine s t ∧ SameErrors s t ∧ SamePeaks s t ∧ SameResult s t ∧
      SameSynth s t ∧ SameOutside s t ∧ (r ≠ .cfg → t.winCount = s.winCount) ∧
      (r ≠ .irqEn → t.irqEn = s.irqEn) ∧ (r ≠ .cfg → t.log2n = s.log2n ∧ t.peakK = s.peakK) ∧
      (r ≠ .fs → t.fs = s.fs) ∧ (r ≠ .tol → t.tol = s.tol) ∧ (r ≠ .minSamples → t.minSamples = s.minSamples) ∧
      (r ≠ .symLen → t.symLen = s.symLen) ∧ (r ≠ .synLen → t.synLen = s.synLen) ∧ (r ≠ .ampl → t.ampl = s.ampl) ∧
      (∀ i, r ≠ .toneLo i → t.toneLo.get i = s.toneLo.get i) ∧ (∀ i, r ≠ .toneHi i → t.toneHi.get i = s.toneHi.get i) ∧
      (∀ a : Nat, (∀ i, r = .msg i → a ≠ msgAddr i.val) → t.ramByte a = s.ramByte a)

/-- 44 R214: a CFG write that is not refused empties the window exactly when the legalised LOG2N differs from the current one. -/
def Obligations.CfgWriteEmptiesWindowOnNewLength : Prop :=
  ∀ (s : State) (v : Word), s.eng = .idle →
    ∃ t, hostAccess (.write 0x014#16 4 v) s = .next t ∧ t.log2n.toNat = min (max (v.toNat % 16) 3) 12 ∧
      (t.log2n ≠ s.log2n → t.winCount = 0) ∧ (t.log2n = s.log2n → t.winCount = s.winCount) ∧
      (LegalRegs s → t.winCount.toNat ≤ 2 ^ t.log2n.toNat)

/-- 20 R85: a write to a read-only register changes no state and records no error; a read of CMD or WIN_DATA returns 0 with no side
effect. -/
def Obligations.ReadOnlyAndWriteOnlyAccesses : Prop :=
  (∀ (s : State) (r : Reg) (v : Word), readOnly r = true →
    ∃ t, hostAccess (.write r.offset 4 v) s = .next t ∧ t.response = .ok ∧ SameEngine s t ∧ SameErrors s t ∧ SameData s t) ∧
  (∀ (s : State) (r : Reg), r = .cmd ∨ r = .winData →
    ∃ t, hostAccess (.read r.offset 4) s = .next t ∧ t.response = .data 0 ∧ SameEngine s t ∧ SameErrors s t ∧ SameData s t)

/-! ## Interrupt -/

/-- 60 R259, 10 R48: IRQ is asserted exactly when one of the five flags is pending and enabled. -/
def Obligations.IrqIsEnabledFlagPending : Prop :=
  ∀ s : State, s.irq = true ↔
    (s.done = true ∧ s.irqEn.getLsbD 1 = true) ∨ (s.errIllegal = true ∧ s.irqEn.getLsbD 4 = true) ∨
    (s.errBusy = true ∧ s.irqEn.getLsbD 5 = true) ∨ (s.errOvf = true ∧ s.irqEn.getLsbD 6 = true) ∨
    (s.errBus = true ∧ s.irqEn.getLsbD 7 = true)

/-- 45 R234: an IRQ_EN write is never refused and keeps the five enable bits, and IRQ follows at once: after it IRQ is 1 exactly when
a flag that is 1 has its bit in v, and after a STATUS write exactly when a flag that is 1 and enabled is not cleared by it. -/
def Obligations.IrqEnWriteTakesEffectAtOnce : Prop :=
  (∀ (s : State) (v : Word), ∃ t, hostAccess (.write 0x010#16 4 v) s = .next t ∧ t.response = .ok ∧
    t.irqEn = v &&& 0x000000F2#32 ∧ SameErrors s t ∧ t.done = s.done ∧
    (t.irq = true ↔
      (s.done = true ∧ v.getLsbD 1 = true) ∨ (s.errIllegal = true ∧ v.getLsbD 4 = true) ∨
      (s.errBusy = true ∧ v.getLsbD 5 = true) ∨ (s.errOvf = true ∧ v.getLsbD 6 = true) ∨
      (s.errBus = true ∧ v.getLsbD 7 = true))) ∧
  (∀ (s : State) (v : Word), ∃ t, hostAccess (.write 0x00C#16 4 v) s = .next t ∧ t.response = .ok ∧ t.irqEn = s.irqEn ∧
    (t.irq = true ↔
      (s.done = true ∧ s.irqEn.getLsbD 1 = true ∧ v.getLsbD 1 = false) ∨
      (s.errIllegal = true ∧ s.irqEn.getLsbD 4 = true ∧ v.getLsbD 4 = false) ∨
      (s.errBusy = true ∧ s.irqEn.getLsbD 5 = true ∧ v.getLsbD 5 = false) ∨
      (s.errOvf = true ∧ s.irqEn.getLsbD 6 = true ∧ v.getLsbD 6 = false) ∨
      (s.errBus = true ∧ s.irqEn.getLsbD 7 = true ∧ v.getLsbD 7 = false)))

/-! ## Control commands -/

/-- 45 R230: NOP is accepted in every state and changes nothing. -/
def Obligations.NopChangesNothing : Prop :=
  ∀ s : State, ∃ t, exec .nop s = .next t ∧ t.response = .ok ∧ SameEngine s t ∧ SameErrors s t ∧ SameData s t

/-- 45 R231, R232; 70 R280: SOFT_RESET, whatever the state, gives every register its reset value, aborts a BUSY command, keeps
the RAMs; the reset input does the same. -/
def Obligations.SoftResetGivesResetValues : Prop :=
  ∀ s : State, ∃ t, exec .softReset s = .next t ∧ t.response = .ok ∧
    t.eng = .idle ∧ t.statusWord = 0x00000200#32 ∧ t.irqEn = 0#32 ∧ t.irq = false ∧ t.cfgWord = 0x0000080C#32 ∧
    t.fs.toNat = 44100 ∧ t.tol = 0x00032000#32 ∧ t.minSamples.toNat = 2048 ∧ t.winCount.toNat = 0 ∧
    t.symLen.toNat = 44100 ∧ t.synLen.toNat = 0 ∧ t.ampl.toNat = 0 ∧ t.synPos = 0#32 ∧
    (∀ i v, t.acc i v = 0#32) ∧ t.resultWord = 0#32 ∧ t.peakCnt.toNat = 0 ∧
    (∀ j, t.peaks.get j = ⟨0#12, 0#32, 0#64⟩) ∧ (∀ i, t.matchFreq.get i = 0#32) ∧
    (∀ i : Fin 8, (t.toneLo.get i).toNat = (1000 + 400 * i.val) * 4096 ∧
      (t.toneHi.get i).toNat = (1200 + 400 * i.val) * 4096) ∧
    SameRam s t ∧ SameOutside s t ∧
    ∃ u, perform .resetPin s = .next u ∧ t = { u with response := .ok }

/-- 45 R233: a STATUS write, never refused, clears exactly the bits 1, 4, 5, 6, 7 in which v is 1; every other bit of STATUS and
all other state is as before. -/
def Obligations.StatusWriteClearsWrittenOnes : Prop :=
  ∀ (s : State) (v : Word), ∃ t, exec (.statusW1c v) s = .next t ∧ t.response = .ok ∧
    t.statusWord = s.statusWord &&& ~~~(v &&& 0x000000F2#32) ∧ t.eng = s.eng ∧ SameData s t

/-- 30 R111 to R113: no instruction but SOFT_RESET writes a configuration register, and none at all writes the inputs. -/
def Obligations.InstructionsKeepConfiguration : Prop :=
  ∀ (s t : State) (i : Instr), exec i s = .next t →
    t.inputs = s.inputs ∧ t.draws = s.draws ∧ (i ≠ .softReset → SameConfig s t ∧ SamePeaks s t ∧ SameResult s t)

/-- 30 R114: accepting an analysis command sets ENG (so that BUSY reads 1) and changes nothing else; DONE is not changed; the
command's state change happens at its completion step. -/
def Obligations.AnalysisCommandAccepted : Prop :=
  ∀ (s : State) (i : Instr) (c : Analysis),
    ((i = .fft ∧ c = .fft) ∨ (i = .peaks ∧ c = .peaks) ∨ (i = .classify ∧ c = .classify) ∨ (i = .decode ∧ c = .decode)) →
    s.eng = .idle →
    ∃ t, exec i s = .next t ∧ t.response = .ok ∧ t.eng = .busy c ∧ t.statusWord.getLsbD 0 = true ∧ t.done = s.done ∧
      SameErrors s t ∧ SameData s t ∧ perform .engine t = .next (t.complete c)

/-! ## The window -/

/-- 44 R213: WIN_CLEAR empties the window when ENG is IDLE: every window-view read is then 0; the WIN RAM keeps its contents, DONE
is not set, and nothing else changes. -/
def Obligations.WinClearEmptiesWindow : Prop :=
  ∀ s : State, s.eng = .idle →
    ∃ t, exec .winClear s = .next t ∧ t.response = .ok ∧ t.winCount = 0 ∧ (∀ i, t.regValue (.winView i) = 0#32) ∧
      SameEngine s t ∧ SameErrors s t ∧ SameConfig s t ∧ SamePeaks s t ∧ SameResult s t ∧ SameSynth s t ∧ SameRam s t ∧
      SameOutside s t

/-- 44 R211, R212: with ENG IDLE and WIN_COUNT < N, a push stores bits 15:0 at WIN[WIN_COUNT] (two bytes at 0x4000 + 4 WIN_COUNT,
all other bytes of memory as before), WIN_COUNT grows by one, and the view reads the sample sign-extended there. -/
def Obligations.WinPushAppendsSample : Prop :=
  ∀ (s : State) (v : Word), s.eng = .idle → s.winCount.toNat < 2 ^ s.log2n.toNat → s.log2n.toNat ≤ 12 →
    ∃ t, exec (.winPush v) s = .next t ∧ t.response = .ok ∧ t.winCount.toNat = s.winCount.toNat + 1 ∧
      t.xw s.winCount.toNat = v.setWidth 16 ∧ (∀ i, i ≠ s.winCount.toNat → t.xw i = s.xw i) ∧
      (∀ i : Fin 4096, i.val = s.winCount.toNat → t.regValue (.winView i) = (v.setWidth 16).signExtend 32) ∧
      (∀ a, a < winAddr s.winCount.toNat ∨ winAddr s.winCount.toNat + 2 ≤ a → t.ramByte a = s.ramByte a) ∧
      SameEngine s t ∧ SameErrors s t ∧ SameConfig s t ∧ SamePeaks s t ∧ SameResult s t ∧ SameSynth s t ∧ SameOutside s t

/-- 60 R253: a push, not refused by the interlock, into a full window sets ERR_OVF, discards the sample and changes nothing
else. -/
def Obligations.WinPushIntoFullWindowOverflows : Prop :=
  ∀ (s : State) (v : Word), s.eng = .idle → s.winCount.toNat = 2 ^ s.log2n.toNat →
    ∃ t, exec (.winPush v) s = .next t ∧ t.response = .ok ∧ t.errOvf = true ∧ OnlyRaises .ovf s t

/-! ## FFT -/

/-- 40 R130, R131: FFT, accepted when ENG is IDLE, publishes at its completion the transform of the effective window in
SPEC[0..N-1] and sets DONE; every other byte of memory, WIN_COUNT, RESULT and all other registers are as before. -/
def Obligations.FftCommandPublishesSpectrum : Prop :=
  ∀ s : State, LegalRegs s → s.eng = .idle →
    ∃ t u, exec .fft s = .next t ∧ t.eng = .busy .fft ∧ perform .engine t = .next u ∧
      SameEngine { s with done := true } u ∧ SameErrors s u ∧ SameConfig s u ∧ SamePeaks s u ∧ SameResult s u ∧
      SameSynth s u ∧ u.winCount = s.winCount ∧ SameOutside s u ∧
      (∃ X : List Cplx, X = fft s.log2n.toNat ((List.range (2 ^ s.log2n.toNat)).map fun i => ⟨(s.xw i).toInt, 0⟩) ∧
        X.length = 2 ^ s.log2n.toNat ∧
        ∀ k (h : k < X.length), (u.specRe k).toInt = X[k].re ∧ (u.specIm k).toInt = X[k].im) ∧
      (∀ a, a < specAddr 0 ∨ specAddr (2 ^ s.log2n.toNat) ≤ a → u.ramByte a = s.ramByte a)

/-- 40 R137: SPEC[0] = (sum of xw[i], 0) and SPEC[N/2] = (sum of (-1)^i xw[i], 0) exactly. -/
def Obligations.DcAndNyquistBinsAreExact : Prop :=
  ∀ s : State, LegalRegs s →
    ((completeFft s).specRe 0).toInt = ((List.range (2 ^ s.log2n.toNat)).map fun i => (s.xw i).toInt).sum ∧
    (completeFft s).specIm 0 = 0#32 ∧
    ((completeFft s).specRe (2 ^ s.log2n.toNat / 2)).toInt =
      ((List.range (2 ^ s.log2n.toNat)).map fun i => (-1) ^ i * (s.xw i).toInt).sum ∧
    (completeFft s).specIm (2 ^ s.log2n.toNat / 2) = 0#32

/-- 40 R140: the in-place iterative form (bit-reversed input order, then stages M = 2, 4, ..., N) gives the same result. -/
def Obligations.IterativeTransformAgrees : Prop :=
  ∀ (l : Nat) (a : List Cplx), a.length = 2 ^ l → iterativeFft l a = fft l a

/-- 40 R133, R134: the product is the exact one rounded to nearest with ties toward plus infinity; with W(0, M) = 1 it is exact;
W(M/4, M) = -i for every size 4..4096. -/
def Obligations.ComplexProductRoundsOnce : Prop :=
  (∀ w o : Cplx, ∀ t, t = cmul w o →
    (let x := w.re * o.re - w.im * o.im
     x - 2 ^ 14 < 2 ^ 15 * t.re ∧ 2 ^ 15 * t.re ≤ x + 2 ^ 14) ∧
    (let y := w.re * o.im + w.im * o.re
     y - 2 ^ 14 < 2 ^ 15 * t.im ∧ 2 ^ 15 * t.im ≤ y + 2 ^ 14)) ∧
  (∀ (m : Nat) (o : Cplx), twiddle 0 m = ⟨32768, 0⟩ ∧ cmul (twiddle 0 m) o = o) ∧
  (∀ l : Nat, 2 ≤ l → l ≤ 12 → twiddle (2 ^ l / 4) (2 ^ l) = ⟨0, -32768⟩)

/-- 10 R41: the sine ROM: its exact entries, its range, its period and its symmetries about pi and pi/2. -/
def Obligations.SineRomSymmetries : Prop :=
  sine 0 = 0 ∧ sine 512 = 23170 ∧ sine 1024 = 32768 ∧ sine 2048 = 0 ∧ sine 3072 = -32768 ∧
  ∀ p : Nat, sine (p + 4096) = sine p ∧ sine (p + 2048) = -sine p ∧ -32768 ≤ sine p ∧ sine p ≤ 32768 ∧
    (p ≤ 2048 → sine (2048 - p) = sine p)

/-! ## PEAKS -/

/-- 41 R150, R153 to R155: PEAKS, accepted when ENG is IDLE, publishes at its completion min(K, N/2 - 1) slots; each names a bin of
1..N/2-1 with its exact squared magnitude and frequency, the others are zero; nothing else changes but DONE. -/
def Obligations.PeaksCommandPublishesSlots : Prop :=
  ∀ s : State, LegalRegs s → s.eng = .idle →
    ∃ t u, exec .peaks s = .next t ∧ t.eng = .busy .peaks ∧ perform .engine t = .next u ∧
      SameEngine { s with done := true } u ∧ SameErrors s u ∧ SameConfig s u ∧ SameResult s u ∧ SameSynth s u ∧
      u.winCount = s.winCount ∧ SameRam s u ∧ SameOutside s u ∧
      u.peakCnt.toNat = min s.peakK.toNat (2 ^ s.log2n.toNat / 2 - 1) ∧
      ∀ j : Fin 8,
        (j.val < u.peakCnt.toNat →
          1 ≤ (u.peaks.get j).bin.toNat ∧ (u.peaks.get j).bin.toNat ≤ 2 ^ s.log2n.toNat / 2 - 1 ∧
          ((u.peaks.get j).mag.toNat : Int) = exactSqMag s (u.peaks.get j).bin.toNat ∧
          (u.peaks.get j).freq.toNat = ((u.peaks.get j).bin.toNat * s.fs.toNat) * 2 ^ (12 - s.log2n.toNat)) ∧
        (u.peakCnt.toNat ≤ j.val → u.peaks.get j = ⟨0#12, 0#32, 0#64⟩)

/-- 41 R152, R154, R156, R157: after PEAKS the slots are in strictly descending rank (magnitude, then bin), and every bin of
1..N/2-1 that is in no slot ranks below every slot. -/
def Obligations.PeakSlotsAreTheStrongest : Prop :=
  ∀ s u : State, LegalRegs s → u = completePeaks s →
    PeaksOrdered u ∧
    ∀ b, 1 ≤ b → b ≤ 2 ^ s.log2n.toNat / 2 - 1 →
      (∀ j : Fin 8, j.val < u.peakCnt.toNat → (u.peaks.get j).bin.toNat ≠ b) →
      ∀ j : Fin 8, j.val < u.peakCnt.toNat →
        exactSqMag s b < (u.peaks.get j).mag.toNat ∨
        (exactSqMag s b = (u.peaks.get j).mag.toNat ∧ b < (u.peaks.get j).bin.toNat)

/-- 41 R153: freq_raw(b) is the exact `b * FS * 4096 / N`, and it is below 2^29, for every candidate bin. -/
def Obligations.BinFrequencyIsExact : Prop :=
  ∀ (s : State) (b : Nat), LegalRegs s → b ≤ 2 ^ s.log2n.toNat / 2 - 1 →
    s.freqRaw b * 2 ^ s.log2n.toNat = b * s.fs.toNat * 4096 ∧ s.freqRaw b < 2 ^ 29

/-! ## CLASSIFY -/

/-- 42 R165, R168, R169, R170, R172: CLASSIFY, accepted when ENG is IDLE, sets VALID and DONE and clears DROPPED at its completion;
position i is matched exactly when a detected frequency is strictly within TOL of one of its tones; an unmatched position
gives bit 0 and MATCH_FREQ 0; nothing else changes. -/
def Obligations.ClassifyCommandPublishesResult : Prop :=
  ∀ s : State, s.eng = .idle →
    ∃ t u, exec .classify s = .next t ∧ t.eng = .busy .classify ∧ perform .engine t = .next u ∧
      SameEngine { s with done := true } u ∧ SameErrors s u ∧ SameConfig s u ∧ SamePeaks s u ∧ SameSynth s u ∧
      u.winCount = s.winCount ∧ SameRam s u ∧ SameOutside s u ∧
      u.resValid = true ∧ u.resDropped = false ∧
      ∀ i : Fin 8,
        (u.resMatched.getLsbD i.val = true ↔
          ∃ f, Detected s f ∧ (distance f (s.toneLo.get i) < s.tol.toNat ∨ distance f (s.toneHi.get i) < s.tol.toNat)) ∧
        (u.resMatched.getLsbD i.val = false → u.resByte.getLsbD (7 - i.val) = false ∧ u.matchFreq.get i = 0#32)

/-- 42 R166, R167, R170: a matched position takes the detected frequency and tone with the smallest difference; among equal
differences the lower frequency wins, and for one frequency the low tone wins over the high tone. -/
def Obligations.ClassifierPicksNearestTone : Prop :=
  ∀ (s u : State) (i : Fin 8), u = completeClassify s → u.resMatched.getLsbD i.val = true →
    let bit := u.resByte.getLsbD (7 - i.val)
    let f := u.matchFreq.get i
    let d := distance f (s.tone i bit)
    Detected s f ∧ d < s.tol.toNat ∧
    ∀ (g : Word) (v : Bool), Detected s g →
      d < distance g (s.tone i v) ∨
      (d = distance g (s.tone i v) ∧ (f.toNat < g.toNat ∨ (f = g ∧ (bit = false ∨ v = true))))

/-! ## DECODE -/

/-- 44 R218, R219: a DECODE that finds WIN_COUNT < MIN_SAMPLES writes RESULT with VALID = 0 and DROPPED = 1, leaves SPEC, PEAK_CNT,
the peak slots and MATCH_FREQ as they were, sets no error flag and consumes the window. -/
def Obligations.DecodeDropsShortWindow : Prop :=
  ∀ s : State, s.eng = .idle → s.winCount.toNat < s.minSamples.toNat →
    ∃ t u, exec .decode s = .next t ∧ t.eng = .busy .decode ∧ perform .engine t = .next u ∧
      u.resultWord = 0x00020000#32 ∧ u.winCount = 0 ∧ u.matchFreq = s.matchFreq ∧
      SameEngine { s with done := true } u ∧ SameErrors s u ∧ SameConfig s u ∧ SamePeaks s u ∧ SameSynth s u ∧
      SameRam s u ∧ SameOutside s u

/-- 44 R216, R217, R219: a DECODE that is not dropped ends in the very state that FFT, PEAKS, CLASSIFY (each with its completion) and
then WIN_CLEAR end in. -/
def Obligations.DecodeEqualsTheThreeCommands : Prop :=
  ∀ s : State, s.eng = .idle → s.minSamples.toNat ≤ s.winCount.toNat →
    ∃ d d' f f' p p' c c' w,
      exec .decode s = .next d ∧ perform .engine d = .next d' ∧
      exec .fft s = .next f ∧ perform .engine f = .next f' ∧
      exec .peaks f' = .next p ∧ perform .engine p = .next p' ∧
      exec .classify p' = .next c ∧ perform .engine c = .next c' ∧
      exec .winClear c' = .next w ∧ d' = w

/-- 44 R220, R215, R222: a decode that is not dropped depends only on the effective window, CFG, FS, TOL and the tone table: two
states that agree on those (whatever they hold otherwise, and whether silence was pushed or padded) decode alike, and each
yields a byte. -/
def Obligations.DecodeIsMemoryless : Prop :=
  ∀ s s' : State, LegalRegs s → s.minSamples.toNat ≤ s.winCount.toNat → s'.minSamples.toNat ≤ s'.winCount.toNat →
    s'.log2n = s.log2n → s'.peakK = s.peakK → s'.fs = s.fs → s'.tol = s.tol → s'.toneLo = s.toneLo → s'.toneHi = s.toneHi →
    (∀ i, i < 2 ^ s.log2n.toNat → s'.xw i = s.xw i) →
    (completeDecode s).resValid = true ∧
    SameResult (completeDecode s) (completeDecode s') ∧ SamePeaks (completeDecode s) (completeDecode s') ∧
    ∀ k, k < 2 ^ s.log2n.toNat →
      (completeDecode s').specRe k = (completeDecode s).specRe k ∧ (completeDecode s').specIm k = (completeDecode s).specIm k

/-! ## The synthesizer -/

/-- 43 R185: SYN_START, accepted in every state, starts from sample 0 with every accumulator 0; SYN_DONE then reads 1 exactly when
SYN_LEN = 0 (SYM_LEN being at least 1); nothing else changes. -/
def Obligations.SynStartRestartsSynthesis : Prop :=
  ∀ s : State, ∃ t, exec .synStart s = .next t ∧ t.response = .ok ∧ t.synActive = true ∧ t.synPos = 0#32 ∧
    (∀ i v, t.acc i v = 0#32) ∧ (1 ≤ s.symLen.toNat → (t.synDone = true ↔ s.synLen = 0)) ∧
    SameEngine s t ∧ SameErrors s t ∧ SameConfig s t ∧ SamePeaks s t ∧ SameResult s t ∧ t.winCount = s.winCount ∧
    SameRam s t ∧ SameOutside s t

/-- 43 R187: SYN_STOP, accepted in every state, clears SYN_ACTIVE; SYN_POS and ACC keep their values, and so does all else. -/
def Obligations.SynStopKeepsPosition : Prop :=
  ∀ s : State, ∃ t, exec .synStop s = .next t ∧ t.response = .ok ∧ t.synActive = false ∧ t.synPos = s.synPos ∧
    t.accLo = s.accLo ∧ t.accHi = s.accHi ∧ t.synDone = s.synDone ∧
    SameEngine s t ∧ SameErrors s t ∧ SameConfig s t ∧ SamePeaks s t ∧ SameResult s t ∧ t.winCount = s.winCount ∧
    SameRam s t ∧ SameOutside s t

/-- 43 R189 to R195: a SYN_DATA read while SYN_ACTIVE is 1 returns the sample formed from byte b(SYN_POS), MSB first, and the
selected oscillators, truncated toward zero; then every accumulator advances by its tuning word and SYN_POS by one, modulo 2^32.
Nothing else changes. -/
def Obligations.SynReadReturnsNextSample : Prop :=
  ∀ s : State, s.synActive = true → s.synLen ≠ 0 → s.ampl.toNat ≤ 0x8000 →
    ∃ t w, exec .synRead s = .next t ∧ t.response = .data w ∧
      (let b := s.msg (min (s.synPos.toNat / s.symLen.toNat) (s.synLen.toNat - 1))
       let acc : Int := ∑ i : Fin 8, sine ((s.acc i (b.getLsbD (7 - i.val))).toNat / 2 ^ 20)
       w.toInt = (acc * s.ampl.toNat * 32767).tdiv (2 ^ 33)) ∧
      t.synPos.toNat = (s.synPos.toNat + 1) % 2 ^ 32 ∧ t.synActive = true ∧
      (∀ i : Fin 8, ∀ v : Bool, ∀ F : Word, F = (if v then s.toneHi.get i else s.toneLo.get i) →
        t.acc i v = s.acc i v + BitVec.ofNat 32 ((F.toNat * 2 ^ 21 + s.fs.toNat) / (2 * s.fs.toNat))) ∧
      SameEngine s t ∧ SameErrors s t ∧ SameConfig s t ∧ SamePeaks s t ∧ SameResult s t ∧ t.winCount = s.winCount ∧
      SameRam s t ∧ SameOutside s t

/-- 43 R195: a SYN_DATA read while SYN_ACTIVE is 0 returns 0 and changes no state. -/
def Obligations.SynReadInactiveReturnsZero : Prop :=
  ∀ s : State, s.synActive = false →
    ∃ t, exec .synRead s = .next t ∧ t.response = .data 0 ∧ SameEngine s t ∧ SameErrors s t ∧ SameData s t

/-- 43 R199, R195: with an empty message every read while active gives 0, SYN_DONE reads 1, and every accumulator still advances by
its tuning word and SYN_POS by one, modulo 2^32. Nothing else changes. -/
def Obligations.EmptyMessageIsSilence : Prop :=
  ∀ s : State, s.synActive = true → s.synLen = 0 →
    s.synDone = true ∧ ∃ t, exec .synRead s = .next t ∧ t.response = .data 0 ∧ t.synDone = true ∧
      t.synPos.toNat = (s.synPos.toNat + 1) % 2 ^ 32 ∧ t.synActive = true ∧
      (∀ i : Fin 8, ∀ v : Bool, ∀ F : Word, F = (if v then s.toneHi.get i else s.toneLo.get i) →
        t.acc i v = s.acc i v + BitVec.ofNat 32 ((F.toNat * 2 ^ 21 + s.fs.toNat) / (2 * s.fs.toNat))) ∧
      SameEngine s t ∧ SameErrors s t ∧ SameConfig s t ∧ SamePeaks s t ∧ SameResult s t ∧ t.winCount = s.winCount ∧
      SameRam s t ∧ SameOutside s t

/-- 43 R193, R194: the sum of the eight oscillators lies in -262144..262144, and every output sample lies in -32767..32767 for
every legal AMPL, so that it fits signed 16 bits. -/
def Obligations.SynthSampleNeverWraps : Prop :=
  (∀ s : State, -262144 ≤ s.toneSum ∧ s.toneSum ≤ 262144) ∧
  (∀ (acc : Int) (ampl : Nat), -262144 ≤ acc → acc ≤ 262144 → ampl ≤ 0x8000 →
    -32767 ≤ quantise acc ampl ∧ quantise acc ampl ≤ 32767 ∧
    ((BitVec.ofInt 16 (quantise acc ampl)).signExtend 32).toInt = quantise acc ampl)

/-- 43 R189, R196: past the end of the message the last byte's tones go on (tail extension), and SYN_DONE reads 1. -/
def Obligations.SynthesisPastEndRepeatsLastByte : Prop :=
  ∀ s : State, LegalRegs s → s.synLen ≠ 0 → s.symLen.toNat * s.synLen.toNat ≤ s.synPos.toNat →
    s.synByte = s.msg (s.synLen.toNat - 1) ∧ s.synDone = true

/-! ## The platform -/

/-- 20 R80, 45 R235: BASE is a multiple of 0x10000 (whatever it is), BASE + OFF lies in the core's window, and the offset is read
back from it. -/
def Obligations.PlatformAddressRoundTrip : Prop :=
  Config.base % 0x10000 = 0 ∧
  ∀ off : Offset, offsetOfPlatform (platformAddress off) = some off ∧ platformAddress off % 0x10000 = off.toNat
end

