-- ==== Sys2Proof/Laws/Decode.lean ====
section
/-!
SUPPORT. What the address map and the decoder give for an access to a named register.
-/

namespace Sys2Proof

/-- The offset of a register is word-aligned and names it (20 R81). -/
theorem regAt_offset (r : Reg) : r.offset.toNat % 4 = 0 ∧ regAt r.offset = some r := by
  have big : ∀ (q : Reg) (n : Nat), q.offset.toNat = n → n % 4 = 0 → (∀ o : Offset, o.toNat = n → regAt o = some q) →
      q.offset.toNat % 4 = 0 ∧ regAt q.offset = some q := fun q n h h4 hr => ⟨by omega, hr _ h⟩
  cases r with
  | toneLo i => fin_cases i <;> exact ⟨rfl, rfl⟩
  | toneHi i => fin_cases i <;> exact ⟨rfl, rfl⟩
  | peakBin i =>
    have h := i.isLt
    refine big _ (0x200 + 16 * i.val) (by simp only [Reg.offset, BitVec.toNat_ofNat]; omega) (by omega) fun o e => ?_
    simp only [regAt, e, peakRegAt]
    repeat' (first | rw [if_neg (by omega)] | rw [if_pos (by omega)])
    congr 2
    ext
    simp [Fin.ofNat]
  | peakFreq i =>
    have h := i.isLt
    refine big _ (0x204 + 16 * i.val) (by simp only [Reg.offset, BitVec.toNat_ofNat]; omega) (by omega) fun o e => ?_
    simp only [regAt, e, peakRegAt]
    repeat' (first | rw [if_neg (by omega)] | rw [if_pos (by omega)])
    congr 2
    ext
    simp [Fin.ofNat]
    omega
  | peakMagLo i =>
    have h := i.isLt
    refine big _ (0x208 + 16 * i.val) (by simp only [Reg.offset, BitVec.toNat_ofNat]; omega) (by omega) fun o e => ?_
    simp only [regAt, e, peakRegAt]
    repeat' (first | rw [if_neg (by omega)] | rw [if_pos (by omega)])
    congr 2
    ext
    simp [Fin.ofNat]
    omega
  | peakMagHi i =>
    have h := i.isLt
    refine big _ (0x20C + 16 * i.val) (by simp only [Reg.offset, BitVec.toNat_ofNat]; omega) (by omega) fun o e => ?_
    simp only [regAt, e, peakRegAt]
    repeat' (first | rw [if_neg (by omega)] | rw [if_pos (by omega)])
    congr 2
    ext
    simp [Fin.ofNat]
    omega
  | matchFreq i => fin_cases i <;> exact ⟨rfl, rfl⟩
  | msg i =>
    have h := i.isLt
    refine big _ (0x1000 + 4 * i.val) (by simp only [Reg.offset, BitVec.toNat_ofNat]; omega) (by omega) fun o e => ?_
    simp only [regAt, e]
    repeat' (first | rw [if_neg (by omega)] | rw [if_pos (by omega)])
    congr 2
    ext
    simp [Fin.ofNat]
  | winView i =>
    have h := i.isLt
    refine big _ (0x4000 + 4 * i.val) (by simp only [Reg.offset, BitVec.toNat_ofNat]; omega) (by omega) fun o e => ?_
    simp only [regAt, e]
    repeat' (first | rw [if_neg (by omega)] | rw [if_pos (by omega)])
    congr 2
    ext
    simp [Fin.ofNat]
  | specRe i =>
    have h := i.isLt
    refine big _ (0x8000 + 8 * i.val) (by simp only [Reg.offset, BitVec.toNat_ofNat]; omega) (by omega) fun o e => ?_
    simp only [regAt, e]
    repeat' (first | rw [if_neg (by omega)] | rw [if_pos (by omega)])
    congr 2
    ext
    simp [Fin.ofNat]
  | specIm i =>
    have h := i.isLt
    refine big _ (0x8004 + 8 * i.val) (by simp only [Reg.offset, BitVec.toNat_ofNat]; omega) (by omega) fun o e => ?_
    simp only [regAt, e]
    repeat' rw [if_neg (by omega)]
    congr 2
    ext
    simp [Fin.ofNat]
    omega
  | _ => exact ⟨rfl, rfl⟩

/-- A 32-bit read of a register is decoded by the register's row. -/
theorem decode_read (r : Reg) : decode (.read r.offset 4) = decodeRead r := by
  obtain ⟨h, h'⟩ := regAt_offset r
  simp [decode, Access.size, Access.off, h, h']

/-- A 32-bit write of a register is decoded by the register's row. -/
theorem decode_write (r : Reg) (v : Word) : decode (.write r.offset 4 v) = decodeWrite v r := by
  obtain ⟨h, h'⟩ := regAt_offset r
  simp [decode, Access.size, Access.off, h, h']

/-- The access of an instruction decodes to it. -/
theorem decode_encode (i : Instr) : decode (encode i) = .instr i := by
  have w := fun v => decode_write .cmd v
  cases i with
  | winPush v => exact decode_write .winData v
  | synRead => exact decode_read .synData
  | statusW1c v => exact decode_write .status v
  | _ => exact w _

/-- What an access that is no bus error is: a read or a write of the register its offset names. -/
theorem decode_cases (a : Access) :
    (∃ why, (why = .wrongSize ∨ why = .misaligned ∨ why = .unmapped) ∧ decode a = .rejected why) ∨
    (a.size = 4 ∧ a.off.toNat % 4 = 0 ∧ ∃ r, regAt a.off = some r ∧
      ((a = .read a.off 4 ∧ decode a = decodeRead r) ∨ ∃ v, a = .write a.off 4 v ∧ decode a = decodeWrite v r)) := by
  by_cases hs : a.size = 4
  · by_cases hal : a.off.toNat % 4 = 0
    · cases hr : regAt a.off with
      | none => exact .inl ⟨.unmapped, by simp, by simp [decode, hs, hal, hr]⟩
      | some r =>
        refine .inr ⟨hs, hal, r, rfl, ?_⟩
        cases a with
        | read off n =>
          simp only [Access.size] at hs
          subst hs
          exact .inl ⟨rfl, by simp [decode, Access.size, hal, hr]⟩
        | write off n v =>
          simp only [Access.size] at hs
          subst hs
          exact .inr ⟨v, rfl, by simp [decode, Access.size, hal, hr]⟩
    · exact .inl ⟨.misaligned, by simp, by simp [decode, hs, hal]⟩
  · exact .inl ⟨.wrongSize, by simp, by simp [decode, hs]⟩

end Sys2Proof
end

