-- ==== Sys2Proof/Laws/State.lean ====
section
/-!
SUPPORT. One lemma per field per update of the state: what each shared update leaves and what it sets.
-/

namespace Sys2Proof.Machine

variable (s : State)

/-! ## What a bus answer leaves and sets. -/

@[simp] theorem State.respond_eng (r : Response) : (s.respond r).eng = s.eng := rfl
@[simp] theorem State.respond_done (r : Response) : (s.respond r).done = s.done := rfl
@[simp] theorem State.respond_errIllegal (r : Response) : (s.respond r).errIllegal = s.errIllegal := rfl
@[simp] theorem State.respond_errBusy (r : Response) : (s.respond r).errBusy = s.errBusy := rfl
@[simp] theorem State.respond_errOvf (r : Response) : (s.respond r).errOvf = s.errOvf := rfl
@[simp] theorem State.respond_errBus (r : Response) : (s.respond r).errBus = s.errBus := rfl
@[simp] theorem State.respond_synActive (r : Response) : (s.respond r).synActive = s.synActive := rfl
@[simp] theorem State.respond_irqEn (r : Response) : (s.respond r).irqEn = s.irqEn := rfl
@[simp] theorem State.respond_log2n (r : Response) : (s.respond r).log2n = s.log2n := rfl
@[simp] theorem State.respond_peakK (r : Response) : (s.respond r).peakK = s.peakK := rfl
@[simp] theorem State.respond_fs (r : Response) : (s.respond r).fs = s.fs := rfl
@[simp] theorem State.respond_tol (r : Response) : (s.respond r).tol = s.tol := rfl
@[simp] theorem State.respond_minSamples (r : Response) : (s.respond r).minSamples = s.minSamples := rfl
@[simp] theorem State.respond_winCount (r : Response) : (s.respond r).winCount = s.winCount := rfl
@[simp] theorem State.respond_symLen (r : Response) : (s.respond r).symLen = s.symLen := rfl
@[simp] theorem State.respond_synLen (r : Response) : (s.respond r).synLen = s.synLen := rfl
@[simp] theorem State.respond_ampl (r : Response) : (s.respond r).ampl = s.ampl := rfl
@[simp] theorem State.respond_synPos (r : Response) : (s.respond r).synPos = s.synPos := rfl
@[simp] theorem State.respond_accLo (r : Response) : (s.respond r).accLo = s.accLo := rfl
@[simp] theorem State.respond_accHi (r : Response) : (s.respond r).accHi = s.accHi := rfl
@[simp] theorem State.respond_resByte (r : Response) : (s.respond r).resByte = s.resByte := rfl
@[simp] theorem State.respond_resMatched (r : Response) : (s.respond r).resMatched = s.resMatched := rfl
@[simp] theorem State.respond_resValid (r : Response) : (s.respond r).resValid = s.resValid := rfl
@[simp] theorem State.respond_resDropped (r : Response) : (s.respond r).resDropped = s.resDropped := rfl
@[simp] theorem State.respond_peakCnt (r : Response) : (s.respond r).peakCnt = s.peakCnt := rfl
@[simp] theorem State.respond_peaks (r : Response) : (s.respond r).peaks = s.peaks := rfl
@[simp] theorem State.respond_matchFreq (r : Response) : (s.respond r).matchFreq = s.matchFreq := rfl
@[simp] theorem State.respond_toneLo (r : Response) : (s.respond r).toneLo = s.toneLo := rfl
@[simp] theorem State.respond_toneHi (r : Response) : (s.respond r).toneHi = s.toneHi := rfl
@[simp] theorem State.respond_mem (r : Response) : (s.respond r).mem = s.mem := rfl
@[simp] theorem State.respond_inputs (r : Response) : (s.respond r).inputs = s.inputs := rfl
@[simp] theorem State.respond_response (r : Response) : (s.respond r).response = r := rfl
@[simp] theorem State.respond_draws (r : Response) : (s.respond r).draws = s.draws := rfl

/-! ## What storing RAM bytes leaves and sets. -/

@[simp] theorem State.storeBytes_eng (a : Nat) (bs : List Byte) : (s.storeBytes a bs).eng = s.eng := rfl
@[simp] theorem State.storeBytes_done (a : Nat) (bs : List Byte) : (s.storeBytes a bs).done = s.done := rfl
@[simp] theorem State.storeBytes_errIllegal (a : Nat) (bs : List Byte) : (s.storeBytes a bs).errIllegal = s.errIllegal := rfl
@[simp] theorem State.storeBytes_errBusy (a : Nat) (bs : List Byte) : (s.storeBytes a bs).errBusy = s.errBusy := rfl
@[simp] theorem State.storeBytes_errOvf (a : Nat) (bs : List Byte) : (s.storeBytes a bs).errOvf = s.errOvf := rfl
@[simp] theorem State.storeBytes_errBus (a : Nat) (bs : List Byte) : (s.storeBytes a bs).errBus = s.errBus := rfl
@[simp] theorem State.storeBytes_synActive (a : Nat) (bs : List Byte) : (s.storeBytes a bs).synActive = s.synActive := rfl
@[simp] theorem State.storeBytes_irqEn (a : Nat) (bs : List Byte) : (s.storeBytes a bs).irqEn = s.irqEn := rfl
@[simp] theorem State.storeBytes_log2n (a : Nat) (bs : List Byte) : (s.storeBytes a bs).log2n = s.log2n := rfl
@[simp] theorem State.storeBytes_peakK (a : Nat) (bs : List Byte) : (s.storeBytes a bs).peakK = s.peakK := rfl
@[simp] theorem State.storeBytes_fs (a : Nat) (bs : List Byte) : (s.storeBytes a bs).fs = s.fs := rfl
@[simp] theorem State.storeBytes_tol (a : Nat) (bs : List Byte) : (s.storeBytes a bs).tol = s.tol := rfl
@[simp] theorem State.storeBytes_minSamples (a : Nat) (bs : List Byte) : (s.storeBytes a bs).minSamples = s.minSamples := rfl
@[simp] theorem State.storeBytes_winCount (a : Nat) (bs : List Byte) : (s.storeBytes a bs).winCount = s.winCount := rfl
@[simp] theorem State.storeBytes_symLen (a : Nat) (bs : List Byte) : (s.storeBytes a bs).symLen = s.symLen := rfl
@[simp] theorem State.storeBytes_synLen (a : Nat) (bs : List Byte) : (s.storeBytes a bs).synLen = s.synLen := rfl
@[simp] theorem State.storeBytes_ampl (a : Nat) (bs : List Byte) : (s.storeBytes a bs).ampl = s.ampl := rfl
@[simp] theorem State.storeBytes_synPos (a : Nat) (bs : List Byte) : (s.storeBytes a bs).synPos = s.synPos := rfl
@[simp] theorem State.storeBytes_accLo (a : Nat) (bs : List Byte) : (s.storeBytes a bs).accLo = s.accLo := rfl
@[simp] theorem State.storeBytes_accHi (a : Nat) (bs : List Byte) : (s.storeBytes a bs).accHi = s.accHi := rfl
@[simp] theorem State.storeBytes_resByte (a : Nat) (bs : List Byte) : (s.storeBytes a bs).resByte = s.resByte := rfl
@[simp] theorem State.storeBytes_resMatched (a : Nat) (bs : List Byte) : (s.storeBytes a bs).resMatched = s.resMatched := rfl
@[simp] theorem State.storeBytes_resValid (a : Nat) (bs : List Byte) : (s.storeBytes a bs).resValid = s.resValid := rfl
@[simp] theorem State.storeBytes_resDropped (a : Nat) (bs : List Byte) : (s.storeBytes a bs).resDropped = s.resDropped := rfl
@[simp] theorem State.storeBytes_peakCnt (a : Nat) (bs : List Byte) : (s.storeBytes a bs).peakCnt = s.peakCnt := rfl
@[simp] theorem State.storeBytes_peaks (a : Nat) (bs : List Byte) : (s.storeBytes a bs).peaks = s.peaks := rfl
@[simp] theorem State.storeBytes_matchFreq (a : Nat) (bs : List Byte) : (s.storeBytes a bs).matchFreq = s.matchFreq := rfl
@[simp] theorem State.storeBytes_toneLo (a : Nat) (bs : List Byte) : (s.storeBytes a bs).toneLo = s.toneLo := rfl
@[simp] theorem State.storeBytes_toneHi (a : Nat) (bs : List Byte) : (s.storeBytes a bs).toneHi = s.toneHi := rfl
@[simp] theorem State.storeBytes_mem (a : Nat) (bs : List Byte) : (s.storeBytes a bs).mem = s.mem.store a bs := rfl
@[simp] theorem State.storeBytes_inputs (a : Nat) (bs : List Byte) : (s.storeBytes a bs).inputs = s.inputs := rfl
@[simp] theorem State.storeBytes_response (a : Nat) (bs : List Byte) : (s.storeBytes a bs).response = s.response := rfl
@[simp] theorem State.storeBytes_draws (a : Nat) (bs : List Byte) : (s.storeBytes a bs).draws = s.draws := rfl

/-! ## What drawing an `any` value leaves and sets. -/

@[simp] theorem State.respondAny_eng : s.respondAny.eng = s.eng := rfl
@[simp] theorem State.respondAny_done : s.respondAny.done = s.done := rfl
@[simp] theorem State.respondAny_errIllegal : s.respondAny.errIllegal = s.errIllegal := rfl
@[simp] theorem State.respondAny_errBusy : s.respondAny.errBusy = s.errBusy := rfl
@[simp] theorem State.respondAny_errOvf : s.respondAny.errOvf = s.errOvf := rfl
@[simp] theorem State.respondAny_errBus : s.respondAny.errBus = s.errBus := rfl
@[simp] theorem State.respondAny_synActive : s.respondAny.synActive = s.synActive := rfl
@[simp] theorem State.respondAny_irqEn : s.respondAny.irqEn = s.irqEn := rfl
@[simp] theorem State.respondAny_log2n : s.respondAny.log2n = s.log2n := rfl
@[simp] theorem State.respondAny_peakK : s.respondAny.peakK = s.peakK := rfl
@[simp] theorem State.respondAny_fs : s.respondAny.fs = s.fs := rfl
@[simp] theorem State.respondAny_tol : s.respondAny.tol = s.tol := rfl
@[simp] theorem State.respondAny_minSamples : s.respondAny.minSamples = s.minSamples := rfl
@[simp] theorem State.respondAny_winCount : s.respondAny.winCount = s.winCount := rfl
@[simp] theorem State.respondAny_symLen : s.respondAny.symLen = s.symLen := rfl
@[simp] theorem State.respondAny_synLen : s.respondAny.synLen = s.synLen := rfl
@[simp] theorem State.respondAny_ampl : s.respondAny.ampl = s.ampl := rfl
@[simp] theorem State.respondAny_synPos : s.respondAny.synPos = s.synPos := rfl
@[simp] theorem State.respondAny_accLo : s.respondAny.accLo = s.accLo := rfl
@[simp] theorem State.respondAny_accHi : s.respondAny.accHi = s.accHi := rfl
@[simp] theorem State.respondAny_resByte : s.respondAny.resByte = s.resByte := rfl
@[simp] theorem State.respondAny_resMatched : s.respondAny.resMatched = s.resMatched := rfl
@[simp] theorem State.respondAny_resValid : s.respondAny.resValid = s.resValid := rfl
@[simp] theorem State.respondAny_resDropped : s.respondAny.resDropped = s.resDropped := rfl
@[simp] theorem State.respondAny_peakCnt : s.respondAny.peakCnt = s.peakCnt := rfl
@[simp] theorem State.respondAny_peaks : s.respondAny.peaks = s.peaks := rfl
@[simp] theorem State.respondAny_matchFreq : s.respondAny.matchFreq = s.matchFreq := rfl
@[simp] theorem State.respondAny_toneLo : s.respondAny.toneLo = s.toneLo := rfl
@[simp] theorem State.respondAny_toneHi : s.respondAny.toneHi = s.toneHi := rfl
@[simp] theorem State.respondAny_mem : s.respondAny.mem = s.mem := rfl
@[simp] theorem State.respondAny_inputs : s.respondAny.inputs = s.inputs := rfl
@[simp] theorem State.respondAny_response : s.respondAny.response = .data (Config.anyWord s.draws) := rfl
@[simp] theorem State.respondAny_draws : s.respondAny.draws = s.draws + 1 := rfl

/-! ## What a STATUS write leaves and sets (45 R233). -/

@[simp] theorem State.clearFlags_eng (v : Word) : (s.clearFlags v).eng = s.eng := rfl
@[simp] theorem State.clearFlags_done (v : Word) : (s.clearFlags v).done = (s.done && !v.getLsbD 1) := rfl
@[simp] theorem State.clearFlags_errIllegal (v : Word) : (s.clearFlags v).errIllegal = (s.errIllegal && !v.getLsbD 4) := rfl
@[simp] theorem State.clearFlags_errBusy (v : Word) : (s.clearFlags v).errBusy = (s.errBusy && !v.getLsbD 5) := rfl
@[simp] theorem State.clearFlags_errOvf (v : Word) : (s.clearFlags v).errOvf = (s.errOvf && !v.getLsbD 6) := rfl
@[simp] theorem State.clearFlags_errBus (v : Word) : (s.clearFlags v).errBus = (s.errBus && !v.getLsbD 7) := rfl
@[simp] theorem State.clearFlags_synActive (v : Word) : (s.clearFlags v).synActive = s.synActive := rfl
@[simp] theorem State.clearFlags_irqEn (v : Word) : (s.clearFlags v).irqEn = s.irqEn := rfl
@[simp] theorem State.clearFlags_log2n (v : Word) : (s.clearFlags v).log2n = s.log2n := rfl
@[simp] theorem State.clearFlags_peakK (v : Word) : (s.clearFlags v).peakK = s.peakK := rfl
@[simp] theorem State.clearFlags_fs (v : Word) : (s.clearFlags v).fs = s.fs := rfl
@[simp] theorem State.clearFlags_tol (v : Word) : (s.clearFlags v).tol = s.tol := rfl
@[simp] theorem State.clearFlags_minSamples (v : Word) : (s.clearFlags v).minSamples = s.minSamples := rfl
@[simp] theorem State.clearFlags_winCount (v : Word) : (s.clearFlags v).winCount = s.winCount := rfl
@[simp] theorem State.clearFlags_symLen (v : Word) : (s.clearFlags v).symLen = s.symLen := rfl
@[simp] theorem State.clearFlags_synLen (v : Word) : (s.clearFlags v).synLen = s.synLen := rfl
@[simp] theorem State.clearFlags_ampl (v : Word) : (s.clearFlags v).ampl = s.ampl := rfl
@[simp] theorem State.clearFlags_synPos (v : Word) : (s.clearFlags v).synPos = s.synPos := rfl
@[simp] theorem State.clearFlags_accLo (v : Word) : (s.clearFlags v).accLo = s.accLo := rfl
@[simp] theorem State.clearFlags_accHi (v : Word) : (s.clearFlags v).accHi = s.accHi := rfl
@[simp] theorem State.clearFlags_resByte (v : Word) : (s.clearFlags v).resByte = s.resByte := rfl
@[simp] theorem State.clearFlags_resMatched (v : Word) : (s.clearFlags v).resMatched = s.resMatched := rfl
@[simp] theorem State.clearFlags_resValid (v : Word) : (s.clearFlags v).resValid = s.resValid := rfl
@[simp] theorem State.clearFlags_resDropped (v : Word) : (s.clearFlags v).resDropped = s.resDropped := rfl
@[simp] theorem State.clearFlags_peakCnt (v : Word) : (s.clearFlags v).peakCnt = s.peakCnt := rfl
@[simp] theorem State.clearFlags_peaks (v : Word) : (s.clearFlags v).peaks = s.peaks := rfl
@[simp] theorem State.clearFlags_matchFreq (v : Word) : (s.clearFlags v).matchFreq = s.matchFreq := rfl
@[simp] theorem State.clearFlags_toneLo (v : Word) : (s.clearFlags v).toneLo = s.toneLo := rfl
@[simp] theorem State.clearFlags_toneHi (v : Word) : (s.clearFlags v).toneHi = s.toneHi := rfl
@[simp] theorem State.clearFlags_mem (v : Word) : (s.clearFlags v).mem = s.mem := rfl
@[simp] theorem State.clearFlags_inputs (v : Word) : (s.clearFlags v).inputs = s.inputs := rfl
@[simp] theorem State.clearFlags_response (v : Word) : (s.clearFlags v).response = s.response := rfl
@[simp] theorem State.clearFlags_draws (v : Word) : (s.clearFlags v).draws = s.draws := rfl

/-! ## What one sample leaves and sets (43 R195). -/

@[simp] theorem State.advanceSynth_eng : s.advanceSynth.eng = s.eng := rfl
@[simp] theorem State.advanceSynth_done : s.advanceSynth.done = s.done := rfl
@[simp] theorem State.advanceSynth_errIllegal : s.advanceSynth.errIllegal = s.errIllegal := rfl
@[simp] theorem State.advanceSynth_errBusy : s.advanceSynth.errBusy = s.errBusy := rfl
@[simp] theorem State.advanceSynth_errOvf : s.advanceSynth.errOvf = s.errOvf := rfl
@[simp] theorem State.advanceSynth_errBus : s.advanceSynth.errBus = s.errBus := rfl
@[simp] theorem State.advanceSynth_synActive : s.advanceSynth.synActive = s.synActive := rfl
@[simp] theorem State.advanceSynth_irqEn : s.advanceSynth.irqEn = s.irqEn := rfl
@[simp] theorem State.advanceSynth_log2n : s.advanceSynth.log2n = s.log2n := rfl
@[simp] theorem State.advanceSynth_peakK : s.advanceSynth.peakK = s.peakK := rfl
@[simp] theorem State.advanceSynth_fs : s.advanceSynth.fs = s.fs := rfl
@[simp] theorem State.advanceSynth_tol : s.advanceSynth.tol = s.tol := rfl
@[simp] theorem State.advanceSynth_minSamples : s.advanceSynth.minSamples = s.minSamples := rfl
@[simp] theorem State.advanceSynth_winCount : s.advanceSynth.winCount = s.winCount := rfl
@[simp] theorem State.advanceSynth_symLen : s.advanceSynth.symLen = s.symLen := rfl
@[simp] theorem State.advanceSynth_synLen : s.advanceSynth.synLen = s.synLen := rfl
@[simp] theorem State.advanceSynth_ampl : s.advanceSynth.ampl = s.ampl := rfl
@[simp] theorem State.advanceSynth_synPos : s.advanceSynth.synPos = s.synPos + 1 := rfl
@[simp] theorem State.advanceSynth_accLo : s.advanceSynth.accLo = vec8 fun i => s.acc i false + s.ftw i false := rfl
@[simp] theorem State.advanceSynth_accHi : s.advanceSynth.accHi = vec8 fun i => s.acc i true + s.ftw i true := rfl
@[simp] theorem State.advanceSynth_resByte : s.advanceSynth.resByte = s.resByte := rfl
@[simp] theorem State.advanceSynth_resMatched : s.advanceSynth.resMatched = s.resMatched := rfl
@[simp] theorem State.advanceSynth_resValid : s.advanceSynth.resValid = s.resValid := rfl
@[simp] theorem State.advanceSynth_resDropped : s.advanceSynth.resDropped = s.resDropped := rfl
@[simp] theorem State.advanceSynth_peakCnt : s.advanceSynth.peakCnt = s.peakCnt := rfl
@[simp] theorem State.advanceSynth_peaks : s.advanceSynth.peaks = s.peaks := rfl
@[simp] theorem State.advanceSynth_matchFreq : s.advanceSynth.matchFreq = s.matchFreq := rfl
@[simp] theorem State.advanceSynth_toneLo : s.advanceSynth.toneLo = s.toneLo := rfl
@[simp] theorem State.advanceSynth_toneHi : s.advanceSynth.toneHi = s.toneHi := rfl
@[simp] theorem State.advanceSynth_mem : s.advanceSynth.mem = s.mem := rfl
@[simp] theorem State.advanceSynth_inputs : s.advanceSynth.inputs = s.inputs := rfl
@[simp] theorem State.advanceSynth_response : s.advanceSynth.response = s.response := rfl
@[simp] theorem State.advanceSynth_draws : s.advanceSynth.draws = s.draws := rfl

/-! ## What dropping a window leaves and sets (44 R217). -/

@[simp] theorem State.dropWindow_eng : s.dropWindow.eng = s.eng := rfl
@[simp] theorem State.dropWindow_done : s.dropWindow.done = s.done := rfl
@[simp] theorem State.dropWindow_errIllegal : s.dropWindow.errIllegal = s.errIllegal := rfl
@[simp] theorem State.dropWindow_errBusy : s.dropWindow.errBusy = s.errBusy := rfl
@[simp] theorem State.dropWindow_errOvf : s.dropWindow.errOvf = s.errOvf := rfl
@[simp] theorem State.dropWindow_errBus : s.dropWindow.errBus = s.errBus := rfl
@[simp] theorem State.dropWindow_synActive : s.dropWindow.synActive = s.synActive := rfl
@[simp] theorem State.dropWindow_irqEn : s.dropWindow.irqEn = s.irqEn := rfl
@[simp] theorem State.dropWindow_log2n : s.dropWindow.log2n = s.log2n := rfl
@[simp] theorem State.dropWindow_peakK : s.dropWindow.peakK = s.peakK := rfl
@[simp] theorem State.dropWindow_fs : s.dropWindow.fs = s.fs := rfl
@[simp] theorem State.dropWindow_tol : s.dropWindow.tol = s.tol := rfl
@[simp] theorem State.dropWindow_minSamples : s.dropWindow.minSamples = s.minSamples := rfl
@[simp] theorem State.dropWindow_winCount : s.dropWindow.winCount = s.winCount := rfl
@[simp] theorem State.dropWindow_symLen : s.dropWindow.symLen = s.symLen := rfl
@[simp] theorem State.dropWindow_synLen : s.dropWindow.synLen = s.synLen := rfl
@[simp] theorem State.dropWindow_ampl : s.dropWindow.ampl = s.ampl := rfl
@[simp] theorem State.dropWindow_synPos : s.dropWindow.synPos = s.synPos := rfl
@[simp] theorem State.dropWindow_accLo : s.dropWindow.accLo = s.accLo := rfl
@[simp] theorem State.dropWindow_accHi : s.dropWindow.accHi = s.accHi := rfl
@[simp] theorem State.dropWindow_resByte : s.dropWindow.resByte = 0 := rfl
@[simp] theorem State.dropWindow_resMatched : s.dropWindow.resMatched = 0 := rfl
@[simp] theorem State.dropWindow_resValid : s.dropWindow.resValid = false := rfl
@[simp] theorem State.dropWindow_resDropped : s.dropWindow.resDropped = true := rfl
@[simp] theorem State.dropWindow_peakCnt : s.dropWindow.peakCnt = s.peakCnt := rfl
@[simp] theorem State.dropWindow_peaks : s.dropWindow.peaks = s.peaks := rfl
@[simp] theorem State.dropWindow_matchFreq : s.dropWindow.matchFreq = s.matchFreq := rfl
@[simp] theorem State.dropWindow_toneLo : s.dropWindow.toneLo = s.toneLo := rfl
@[simp] theorem State.dropWindow_toneHi : s.dropWindow.toneHi = s.toneHi := rfl
@[simp] theorem State.dropWindow_mem : s.dropWindow.mem = s.mem := rfl
@[simp] theorem State.dropWindow_inputs : s.dropWindow.inputs = s.inputs := rfl
@[simp] theorem State.dropWindow_response : s.dropWindow.response = s.response := rfl
@[simp] theorem State.dropWindow_draws : s.dropWindow.draws = s.draws := rfl

/-! ## What a CFG write leaves and sets (45 R236). -/

@[simp] theorem State.writeCfg_eng (v : Word) : (s.writeCfg v).eng = s.eng := rfl
@[simp] theorem State.writeCfg_done (v : Word) : (s.writeCfg v).done = s.done := rfl
@[simp] theorem State.writeCfg_errIllegal (v : Word) : (s.writeCfg v).errIllegal = s.errIllegal := rfl
@[simp] theorem State.writeCfg_errBusy (v : Word) : (s.writeCfg v).errBusy = s.errBusy := rfl
@[simp] theorem State.writeCfg_errOvf (v : Word) : (s.writeCfg v).errOvf = s.errOvf := rfl
@[simp] theorem State.writeCfg_errBus (v : Word) : (s.writeCfg v).errBus = s.errBus := rfl
@[simp] theorem State.writeCfg_synActive (v : Word) : (s.writeCfg v).synActive = s.synActive := rfl
@[simp] theorem State.writeCfg_irqEn (v : Word) : (s.writeCfg v).irqEn = s.irqEn := rfl
@[simp] theorem State.writeCfg_log2n (v : Word) : (s.writeCfg v).log2n = legalLog2n v := rfl
@[simp] theorem State.writeCfg_peakK (v : Word) : (s.writeCfg v).peakK = legalPeakK v := rfl
@[simp] theorem State.writeCfg_fs (v : Word) : (s.writeCfg v).fs = s.fs := rfl
@[simp] theorem State.writeCfg_tol (v : Word) : (s.writeCfg v).tol = s.tol := rfl
@[simp] theorem State.writeCfg_minSamples (v : Word) : (s.writeCfg v).minSamples = s.minSamples := rfl
@[simp] theorem State.writeCfg_winCount (v : Word) : (s.writeCfg v).winCount = (if legalLog2n v = s.log2n then s.winCount else 0) := rfl
@[simp] theorem State.writeCfg_symLen (v : Word) : (s.writeCfg v).symLen = s.symLen := rfl
@[simp] theorem State.writeCfg_synLen (v : Word) : (s.writeCfg v).synLen = s.synLen := rfl
@[simp] theorem State.writeCfg_ampl (v : Word) : (s.writeCfg v).ampl = s.ampl := rfl
@[simp] theorem State.writeCfg_synPos (v : Word) : (s.writeCfg v).synPos = s.synPos := rfl
@[simp] theorem State.writeCfg_accLo (v : Word) : (s.writeCfg v).accLo = s.accLo := rfl
@[simp] theorem State.writeCfg_accHi (v : Word) : (s.writeCfg v).accHi = s.accHi := rfl
@[simp] theorem State.writeCfg_resByte (v : Word) : (s.writeCfg v).resByte = s.resByte := rfl
@[simp] theorem State.writeCfg_resMatched (v : Word) : (s.writeCfg v).resMatched = s.resMatched := rfl
@[simp] theorem State.writeCfg_resValid (v : Word) : (s.writeCfg v).resValid = s.resValid := rfl
@[simp] theorem State.writeCfg_resDropped (v : Word) : (s.writeCfg v).resDropped = s.resDropped := rfl
@[simp] theorem State.writeCfg_peakCnt (v : Word) : (s.writeCfg v).peakCnt = s.peakCnt := rfl
@[simp] theorem State.writeCfg_peaks (v : Word) : (s.writeCfg v).peaks = s.peaks := rfl
@[simp] theorem State.writeCfg_matchFreq (v : Word) : (s.writeCfg v).matchFreq = s.matchFreq := rfl
@[simp] theorem State.writeCfg_toneLo (v : Word) : (s.writeCfg v).toneLo = s.toneLo := rfl
@[simp] theorem State.writeCfg_toneHi (v : Word) : (s.writeCfg v).toneHi = s.toneHi := rfl
@[simp] theorem State.writeCfg_mem (v : Word) : (s.writeCfg v).mem = s.mem := rfl
@[simp] theorem State.writeCfg_inputs (v : Word) : (s.writeCfg v).inputs = s.inputs := rfl
@[simp] theorem State.writeCfg_response (v : Word) : (s.writeCfg v).response = s.response := rfl
@[simp] theorem State.writeCfg_draws (v : Word) : (s.writeCfg v).draws = s.draws := rfl

/-! ## What setting an error flag leaves and sets (60 R258). -/

@[simp] theorem State.setErr_eng (f : ErrFlag) : (s.setErr f).eng = s.eng := by
  cases f <;> rfl
@[simp] theorem State.setErr_done (f : ErrFlag) : (s.setErr f).done = s.done := by
  cases f <;> rfl
@[simp] theorem State.setErr_errIllegal (f : ErrFlag) : (s.setErr f).errIllegal = (s.errIllegal || decide (f = .illegal)) := by
  cases f <;> simp [State.setErr]
@[simp] theorem State.setErr_errBusy (f : ErrFlag) : (s.setErr f).errBusy = (s.errBusy || decide (f = .busy)) := by
  cases f <;> simp [State.setErr]
@[simp] theorem State.setErr_errOvf (f : ErrFlag) : (s.setErr f).errOvf = (s.errOvf || decide (f = .ovf)) := by
  cases f <;> simp [State.setErr]
@[simp] theorem State.setErr_errBus (f : ErrFlag) : (s.setErr f).errBus = (s.errBus || decide (f = .bus)) := by
  cases f <;> simp [State.setErr]
@[simp] theorem State.setErr_synActive (f : ErrFlag) : (s.setErr f).synActive = s.synActive := by
  cases f <;> rfl
@[simp] theorem State.setErr_irqEn (f : ErrFlag) : (s.setErr f).irqEn = s.irqEn := by
  cases f <;> rfl
@[simp] theorem State.setErr_log2n (f : ErrFlag) : (s.setErr f).log2n = s.log2n := by
  cases f <;> rfl
@[simp] theorem State.setErr_peakK (f : ErrFlag) : (s.setErr f).peakK = s.peakK := by
  cases f <;> rfl
@[simp] theorem State.setErr_fs (f : ErrFlag) : (s.setErr f).fs = s.fs := by
  cases f <;> rfl
@[simp] theorem State.setErr_tol (f : ErrFlag) : (s.setErr f).tol = s.tol := by
  cases f <;> rfl
@[simp] theorem State.setErr_minSamples (f : ErrFlag) : (s.setErr f).minSamples = s.minSamples := by
  cases f <;> rfl
@[simp] theorem State.setErr_winCount (f : ErrFlag) : (s.setErr f).winCount = s.winCount := by
  cases f <;> rfl
@[simp] theorem State.setErr_symLen (f : ErrFlag) : (s.setErr f).symLen = s.symLen := by
  cases f <;> rfl
@[simp] theorem State.setErr_synLen (f : ErrFlag) : (s.setErr f).synLen = s.synLen := by
  cases f <;> rfl
@[simp] theorem State.setErr_ampl (f : ErrFlag) : (s.setErr f).ampl = s.ampl := by
  cases f <;> rfl
@[simp] theorem State.setErr_synPos (f : ErrFlag) : (s.setErr f).synPos = s.synPos := by
  cases f <;> rfl
@[simp] theorem State.setErr_accLo (f : ErrFlag) : (s.setErr f).accLo = s.accLo := by
  cases f <;> rfl
@[simp] theorem State.setErr_accHi (f : ErrFlag) : (s.setErr f).accHi = s.accHi := by
  cases f <;> rfl
@[simp] theorem State.setErr_resByte (f : ErrFlag) : (s.setErr f).resByte = s.resByte := by
  cases f <;> rfl
@[simp] theorem State.setErr_resMatched (f : ErrFlag) : (s.setErr f).resMatched = s.resMatched := by
  cases f <;> rfl
@[simp] theorem State.setErr_resValid (f : ErrFlag) : (s.setErr f).resValid = s.resValid := by
  cases f <;> rfl
@[simp] theorem State.setErr_resDropped (f : ErrFlag) : (s.setErr f).resDropped = s.resDropped := by
  cases f <;> rfl
@[simp] theorem State.setErr_peakCnt (f : ErrFlag) : (s.setErr f).peakCnt = s.peakCnt := by
  cases f <;> rfl
@[simp] theorem State.setErr_peaks (f : ErrFlag) : (s.setErr f).peaks = s.peaks := by
  cases f <;> rfl
@[simp] theorem State.setErr_matchFreq (f : ErrFlag) : (s.setErr f).matchFreq = s.matchFreq := by
  cases f <;> rfl
@[simp] theorem State.setErr_toneLo (f : ErrFlag) : (s.setErr f).toneLo = s.toneLo := by
  cases f <;> rfl
@[simp] theorem State.setErr_toneHi (f : ErrFlag) : (s.setErr f).toneHi = s.toneHi := by
  cases f <;> rfl
@[simp] theorem State.setErr_mem (f : ErrFlag) : (s.setErr f).mem = s.mem := by
  cases f <;> rfl
@[simp] theorem State.setErr_inputs (f : ErrFlag) : (s.setErr f).inputs = s.inputs := by
  cases f <;> rfl
@[simp] theorem State.setErr_response (f : ErrFlag) : (s.setErr f).response = s.response := by
  cases f <;> rfl
@[simp] theorem State.setErr_draws (f : ErrFlag) : (s.setErr f).draws = s.draws := by
  cases f <;> rfl

/-! ## What the FFT completion leaves (40 R131). -/

@[simp] theorem completeFft_eng : (completeFft s).eng = s.eng := rfl
@[simp] theorem completeFft_done : (completeFft s).done = s.done := rfl
@[simp] theorem completeFft_errIllegal : (completeFft s).errIllegal = s.errIllegal := rfl
@[simp] theorem completeFft_errBusy : (completeFft s).errBusy = s.errBusy := rfl
@[simp] theorem completeFft_errOvf : (completeFft s).errOvf = s.errOvf := rfl
@[simp] theorem completeFft_errBus : (completeFft s).errBus = s.errBus := rfl
@[simp] theorem completeFft_synActive : (completeFft s).synActive = s.synActive := rfl
@[simp] theorem completeFft_irqEn : (completeFft s).irqEn = s.irqEn := rfl
@[simp] theorem completeFft_log2n : (completeFft s).log2n = s.log2n := rfl
@[simp] theorem completeFft_peakK : (completeFft s).peakK = s.peakK := rfl
@[simp] theorem completeFft_fs : (completeFft s).fs = s.fs := rfl
@[simp] theorem completeFft_tol : (completeFft s).tol = s.tol := rfl
@[simp] theorem completeFft_minSamples : (completeFft s).minSamples = s.minSamples := rfl
@[simp] theorem completeFft_winCount : (completeFft s).winCount = s.winCount := rfl
@[simp] theorem completeFft_symLen : (completeFft s).symLen = s.symLen := rfl
@[simp] theorem completeFft_synLen : (completeFft s).synLen = s.synLen := rfl
@[simp] theorem completeFft_ampl : (completeFft s).ampl = s.ampl := rfl
@[simp] theorem completeFft_synPos : (completeFft s).synPos = s.synPos := rfl
@[simp] theorem completeFft_accLo : (completeFft s).accLo = s.accLo := rfl
@[simp] theorem completeFft_accHi : (completeFft s).accHi = s.accHi := rfl
@[simp] theorem completeFft_resByte : (completeFft s).resByte = s.resByte := rfl
@[simp] theorem completeFft_resMatched : (completeFft s).resMatched = s.resMatched := rfl
@[simp] theorem completeFft_resValid : (completeFft s).resValid = s.resValid := rfl
@[simp] theorem completeFft_resDropped : (completeFft s).resDropped = s.resDropped := rfl
@[simp] theorem completeFft_peakCnt : (completeFft s).peakCnt = s.peakCnt := rfl
@[simp] theorem completeFft_peaks : (completeFft s).peaks = s.peaks := rfl
@[simp] theorem completeFft_matchFreq : (completeFft s).matchFreq = s.matchFreq := rfl
@[simp] theorem completeFft_toneLo : (completeFft s).toneLo = s.toneLo := rfl
@[simp] theorem completeFft_toneHi : (completeFft s).toneHi = s.toneHi := rfl
@[simp] theorem completeFft_inputs : (completeFft s).inputs = s.inputs := rfl
@[simp] theorem completeFft_response : (completeFft s).response = s.response := rfl
@[simp] theorem completeFft_draws : (completeFft s).draws = s.draws := rfl

/-! ## What the PEAKS completion leaves (41 R154). -/

@[simp] theorem completePeaks_eng : (completePeaks s).eng = s.eng := rfl
@[simp] theorem completePeaks_done : (completePeaks s).done = s.done := rfl
@[simp] theorem completePeaks_errIllegal : (completePeaks s).errIllegal = s.errIllegal := rfl
@[simp] theorem completePeaks_errBusy : (completePeaks s).errBusy = s.errBusy := rfl
@[simp] theorem completePeaks_errOvf : (completePeaks s).errOvf = s.errOvf := rfl
@[simp] theorem completePeaks_errBus : (completePeaks s).errBus = s.errBus := rfl
@[simp] theorem completePeaks_synActive : (completePeaks s).synActive = s.synActive := rfl
@[simp] theorem completePeaks_irqEn : (completePeaks s).irqEn = s.irqEn := rfl
@[simp] theorem completePeaks_log2n : (completePeaks s).log2n = s.log2n := rfl
@[simp] theorem completePeaks_peakK : (completePeaks s).peakK = s.peakK := rfl
@[simp] theorem completePeaks_fs : (completePeaks s).fs = s.fs := rfl
@[simp] theorem completePeaks_tol : (completePeaks s).tol = s.tol := rfl
@[simp] theorem completePeaks_minSamples : (completePeaks s).minSamples = s.minSamples := rfl
@[simp] theorem completePeaks_winCount : (completePeaks s).winCount = s.winCount := rfl
@[simp] theorem completePeaks_symLen : (completePeaks s).symLen = s.symLen := rfl
@[simp] theorem completePeaks_synLen : (completePeaks s).synLen = s.synLen := rfl
@[simp] theorem completePeaks_ampl : (completePeaks s).ampl = s.ampl := rfl
@[simp] theorem completePeaks_synPos : (completePeaks s).synPos = s.synPos := rfl
@[simp] theorem completePeaks_accLo : (completePeaks s).accLo = s.accLo := rfl
@[simp] theorem completePeaks_accHi : (completePeaks s).accHi = s.accHi := rfl
@[simp] theorem completePeaks_resByte : (completePeaks s).resByte = s.resByte := rfl
@[simp] theorem completePeaks_resMatched : (completePeaks s).resMatched = s.resMatched := rfl
@[simp] theorem completePeaks_resValid : (completePeaks s).resValid = s.resValid := rfl
@[simp] theorem completePeaks_resDropped : (completePeaks s).resDropped = s.resDropped := rfl
@[simp] theorem completePeaks_matchFreq : (completePeaks s).matchFreq = s.matchFreq := rfl
@[simp] theorem completePeaks_toneLo : (completePeaks s).toneLo = s.toneLo := rfl
@[simp] theorem completePeaks_toneHi : (completePeaks s).toneHi = s.toneHi := rfl
@[simp] theorem completePeaks_mem : (completePeaks s).mem = s.mem := rfl
@[simp] theorem completePeaks_inputs : (completePeaks s).inputs = s.inputs := rfl
@[simp] theorem completePeaks_response : (completePeaks s).response = s.response := rfl
@[simp] theorem completePeaks_draws : (completePeaks s).draws = s.draws := rfl

/-! ## What the CLASSIFY completion leaves (42 R172). -/

@[simp] theorem completeClassify_eng : (completeClassify s).eng = s.eng := rfl
@[simp] theorem completeClassify_done : (completeClassify s).done = s.done := rfl
@[simp] theorem completeClassify_errIllegal : (completeClassify s).errIllegal = s.errIllegal := rfl
@[simp] theorem completeClassify_errBusy : (completeClassify s).errBusy = s.errBusy := rfl
@[simp] theorem completeClassify_errOvf : (completeClassify s).errOvf = s.errOvf := rfl
@[simp] theorem completeClassify_errBus : (completeClassify s).errBus = s.errBus := rfl
@[simp] theorem completeClassify_synActive : (completeClassify s).synActive = s.synActive := rfl
@[simp] theorem completeClassify_irqEn : (completeClassify s).irqEn = s.irqEn := rfl
@[simp] theorem completeClassify_log2n : (completeClassify s).log2n = s.log2n := rfl
@[simp] theorem completeClassify_peakK : (completeClassify s).peakK = s.peakK := rfl
@[simp] theorem completeClassify_fs : (completeClassify s).fs = s.fs := rfl
@[simp] theorem completeClassify_tol : (completeClassify s).tol = s.tol := rfl
@[simp] theorem completeClassify_minSamples : (completeClassify s).minSamples = s.minSamples := rfl
@[simp] theorem completeClassify_winCount : (completeClassify s).winCount = s.winCount := rfl
@[simp] theorem completeClassify_symLen : (completeClassify s).symLen = s.symLen := rfl
@[simp] theorem completeClassify_synLen : (completeClassify s).synLen = s.synLen := rfl
@[simp] theorem completeClassify_ampl : (completeClassify s).ampl = s.ampl := rfl
@[simp] theorem completeClassify_synPos : (completeClassify s).synPos = s.synPos := rfl
@[simp] theorem completeClassify_accLo : (completeClassify s).accLo = s.accLo := rfl
@[simp] theorem completeClassify_accHi : (completeClassify s).accHi = s.accHi := rfl
@[simp] theorem completeClassify_peakCnt : (completeClassify s).peakCnt = s.peakCnt := rfl
@[simp] theorem completeClassify_peaks : (completeClassify s).peaks = s.peaks := rfl
@[simp] theorem completeClassify_toneLo : (completeClassify s).toneLo = s.toneLo := rfl
@[simp] theorem completeClassify_toneHi : (completeClassify s).toneHi = s.toneHi := rfl
@[simp] theorem completeClassify_mem : (completeClassify s).mem = s.mem := rfl
@[simp] theorem completeClassify_inputs : (completeClassify s).inputs = s.inputs := rfl
@[simp] theorem completeClassify_response : (completeClassify s).response = s.response := rfl
@[simp] theorem completeClassify_draws : (completeClassify s).draws = s.draws := rfl

/-! ## The composed updates -/

@[simp] theorem State.refuse_eq (f : ErrFlag) : s.refuse f = (s.setErr f).respond .ok := rfl

@[simp] theorem State.raiseBusError_eq : s.raiseBusError = (s.setErr .bus).respond .error := rfl

@[simp] theorem State.setMsg_eq (i : Nat) (b : Byte) : s.setMsg i b = s.storeBytes (msgAddr i) [b] := rfl

@[simp] theorem State.setWin_eq (i : Nat) (x : Sample) :
    s.setWin i x = s.storeBytes (winAddr i) (bytesOfSample x) := rfl

/-! ## Eight registers by index -/

@[simp] theorem vec8_get {α : Type} (f : Fin 8 → α) (i : Fin 8) : (vec8 f).get i = f i := by
  fin_cases i <;> rfl

@[simp] theorem replicate8_get {α : Type} (a : α) (i : Fin 8) : (Vector.replicate 8 a).get i = a := by
  fin_cases i <;> rfl

theorem Vector.ext8 {α : Type} {u v : Vector α 8} (h : ∀ i : Fin 8, u.get i = v.get i) : u = v := by
  apply Vector.ext
  intro i hi
  exact h ⟨i, hi⟩

/-- Reading one of eight registers after one of them was set. -/
theorem set8_get {α : Type} (u : Vector α 8) (i j : Fin 8) (a : α) :
    (u.set i.val a i.isLt).get j = if j = i then a else u.get j := by
  simp only [Vector.get_eq_getElem, Vector.getElem_set, Fin.ext_iff, eq_comm]

/-! ## The engine -/

@[simp] theorem State.isBusy_eq_true : s.isBusy = true ↔ s.eng ≠ .idle := by
  simp [State.isBusy]

@[simp] theorem State.isBusy_eq_false : s.isBusy = false ↔ s.eng = .idle := by
  simp [State.isBusy]

end Sys2Proof.Machine
end

