-- ==== Sys2Proof/Laws/Memory.lean ====
section
/-!
SUPPORT. The laws of memory: what a byte reads as after a store, that a store keeps the canonical form, and what the three RAMs
hold after each of their writes.
-/

namespace Sys2Proof.Machine

/-! ## One store -/

theorem lookup_cellsFrom (a : Nat) (bs : List Byte) (x : Nat) :
    (cellsFrom a bs).lookup x = if a ≤ x then bs[x - a]? else none := by
  induction bs generalizing a with
  | nil => simp [cellsFrom]
  | cons b bs ih =>
    rw [cellsFrom, List.lookup_cons, ih]
    rcases Nat.lt_trichotomy x a with h | rfl | h
    · have : (x == a) = false := by simp; omega
      rw [this, if_neg (by omega), if_neg (by omega)]
    · simp
    · have : (x == a) = false := by simp; omega
      rw [this, if_pos (by omega), if_pos (by omega), show x - a = (x - (a + 1)) + 1 by omega, List.getElem?_cons_succ]

theorem lookup_filter_key (m : Memory) (p : Nat → Bool) (x : Nat) :
    (m.filter fun c => p c.1).lookup x = if p x then m.lookup x else none := by
  induction m with
  | nil => simp
  | cons c m ih =>
    obtain ⟨k, b⟩ := c
    by_cases hk : p k
    · rw [List.filter_cons_of_pos (by simpa using hk), List.lookup_cons, List.lookup_cons, ih]
      by_cases hx : x = k
      · subst hx; simp [hk]
      · have : (x == k) = false := by simpa using hx
        simp [this]
    · rw [List.filter_cons_of_neg (by simpa using hk), List.lookup_cons, ih]
      by_cases hx : x = k
      · subst hx; simp [hk]
      · have : (x == k) = false := by simpa using hx
        simp [this]

/-- Reading after a store: the stored bytes where they lie, what was there before everywhere else. -/
theorem Memory.lookup_store (m : Memory) (a : Nat) (bs : List Byte) (x : Nat) :
    (m.store a bs).lookup x = if a ≤ x ∧ x < a + bs.length then bs[x - a]? else m.lookup x := by
  rw [Memory.store, List.lookup_append, List.lookup_append, lookup_cellsFrom,
    lookup_filter_key m (fun k => decide (k < a)), lookup_filter_key m (fun k => decide (a + bs.length ≤ k))]
  rcases Nat.lt_or_ge x a with h | h
  · have h1 : ¬ a ≤ x := by omega
    have h2 : ¬ a + bs.length ≤ x := by omega
    simp [h, h1, h2]
  · have h1 : ¬ x < a := by omega
    rcases Nat.lt_or_ge x (a + bs.length) with h2 | h2
    · have h3 : x - a < bs.length := by omega
      simp [h, h1, h2, h3]
    · have h3 : bs.length ≤ x - a := by omega
      have h4 : ¬ x < a + bs.length := by omega
      simp [h, h1, h2, h3, h4]

/-- The canonical form as an order on all pairs of cells. -/
theorem Memory.wf_iff (m : Memory) : m.wf = true ↔ m.Pairwise fun c d => c.1 < d.1 := by
  induction m with
  | nil => simp [Memory.wf]
  | cons c m ih =>
    cases m with
    | nil => simp [Memory.wf]
    | cons d m =>
      rw [Memory.wf, Bool.and_eq_true, decide_eq_true_eq, ih, List.pairwise_cons (a := c)]
      constructor
      · rintro ⟨h, hm⟩
        refine ⟨fun e he => ?_, hm⟩
        rcases List.mem_cons.1 he with rfl | he
        · exact h
        · exact h.trans ((List.pairwise_cons.1 hm).1 e he)
      · rintro ⟨h, hm⟩
        exact ⟨h d (List.mem_cons_self ..), hm⟩

theorem mem_cellsFrom {a : Nat} {bs : List Byte} {c : Host.Cell} (h : c ∈ cellsFrom a bs) :
    a ≤ c.1 ∧ c.1 < a + bs.length := by
  induction bs generalizing a with
  | nil => simp [cellsFrom] at h
  | cons b bs ih =>
    rcases List.mem_cons.1 h with rfl | h
    · simp
    · have := ih h
      simp only [List.length_cons]
      omega

theorem pairwise_cellsFrom (a : Nat) (bs : List Byte) : (cellsFrom a bs).Pairwise fun c d => c.1 < d.1 := by
  induction bs generalizing a with
  | nil => simp [cellsFrom]
  | cons b bs ih =>
    rw [cellsFrom, List.pairwise_cons]
    refine ⟨fun c hc => ?_, ih _⟩
    have := mem_cellsFrom hc
    simp only
    omega

/-- Every cell after a store is a new one or an old one. -/
theorem Memory.mem_store {m : Memory} {a : Nat} {bs : List Byte} {c : Host.Cell} (h : c ∈ m.store a bs) :
    (a ≤ c.1 ∧ c.1 < a + bs.length) ∨ c ∈ m := by
  rw [Memory.store, List.mem_append, List.mem_append] at h
  rcases h with (h | h) | h
  · exact .inr (List.mem_of_mem_filter h)
  · exact .inl (mem_cellsFrom h)
  · exact .inr (List.mem_of_mem_filter h)

/-- A store keeps the canonical form. -/
theorem Memory.wf_store {m : Memory} (a : Nat) (bs : List Byte) (h : m.wf = true) : (m.store a bs).wf = true := by
  rw [Memory.wf_iff] at h ⊢
  rw [Memory.store, List.pairwise_append, List.pairwise_append]
  refine ⟨⟨h.filter _, pairwise_cellsFrom a bs, ?_⟩, h.filter _, ?_⟩
  · intro c hc d hd
    have h1 := (List.mem_filter.1 hc).2
    have h2 := mem_cellsFrom hd
    simp only [decide_eq_true_eq] at h1
    omega
  · intro c hc d hd
    have h2 := (List.mem_filter.1 hd).2
    simp only [decide_eq_true_eq] at h2
    rcases List.mem_append.1 hc with hc | hc
    · have h1 := (List.mem_filter.1 hc).2
      simp only [decide_eq_true_eq] at h1
      omega
    · have h1 := mem_cellsFrom hc
      omega

/-- Memory at reset is canonical. -/
theorem reset_mem_wf : State.reset.mem.wf = true := rfl

/-! ## One RAM byte -/

theorem ramByte_congr {s t : State} (h : t.mem = s.mem) (x : Nat) : t.ramByte x = s.ramByte x := by
  rw [State.ramByte, State.ramByte, h]

/-- A RAM byte after bytes were stored. -/
theorem ramByte_storeBytes (s : State) (a : Nat) (bs : List Byte) (x : Nat) :
    (s.storeBytes a bs).ramByte x =
      if h : a ≤ x ∧ x < a + bs.length then bs[x - a]'(by omega) else s.ramByte x := by
  rw [State.ramByte, State.storeBytes_mem, Memory.lookup_store]
  split
  · rename_i h
    rw [List.getElem?_eq_getElem (by omega), Option.getD_some]
  · rfl

theorem ramByte_storeBytes_out (s : State) {a : Nat} {bs : List Byte} {x : Nat} (h : x < a ∨ a + bs.length ≤ x) :
    (s.storeBytes a bs).ramByte x = s.ramByte x := by
  rw [ramByte_storeBytes, dif_neg (by omega)]

/-! ## Words -/

theorem bytesOfWord_append (w : Word) :
    (w.extractLsb' 24 8 ++ w.extractLsb' 16 8 ++ w.extractLsb' 8 8 ++ w.extractLsb' 0 8 : BitVec 32) = w := by
  ext i hi
  simp only [BitVec.getElem_append, BitVec.getElem_extractLsb']
  rcases Nat.lt_or_ge i 8 with h | h
  · simp [h, BitVec.getLsbD_eq_getElem hi]
  rcases Nat.lt_or_ge i 16 with h2 | h2
  · simp [show ¬ i < 8 by omega, show i - 8 < 8 by omega, show 8 + (i - 8) = i by omega, BitVec.getLsbD_eq_getElem hi]
  rcases Nat.lt_or_ge i 24 with h3 | h3
  · simp [show ¬ i < 8 by omega, show ¬ i - 8 < 8 by omega, show i - 8 - 8 < 8 by omega,
      show 16 + (i - 8 - 8) = i by omega, BitVec.getLsbD_eq_getElem hi]
  · simp [show ¬ i < 8 by omega, show ¬ i - 8 < 8 by omega, show ¬ i - 8 - 8 < 8 by omega,
      show 24 + (i - 8 - 8 - 8) = i by omega, BitVec.getLsbD_eq_getElem hi]

theorem bytesOfSample_append (x : Sample) : (x.extractLsb' 8 8 ++ x.extractLsb' 0 8 : BitVec 16) = x := by
  ext i hi
  simp only [BitVec.getElem_append, BitVec.getElem_extractLsb']
  rcases Nat.lt_or_ge i 8 with h | h
  · simp [h, BitVec.getLsbD_eq_getElem hi]
  · simp [show ¬ i < 8 by omega, show 8 + (i - 8) = i by omega, BitVec.getLsbD_eq_getElem hi]

/-! ## The three RAMs -/

/-- WIN[i] after a push at j. -/
theorem win_setWin (s : State) (j i : Nat) (x : Sample) :
    (s.setWin j x).win i = if i = j then x else s.win i := by
  simp only [State.setWin_eq, State.win, State.ramHalf, winAddr]
  split
  · subst i
    rw [ramByte_storeBytes, ramByte_storeBytes, dif_pos (by simp [bytesOfSample]), dif_pos (by simp [bytesOfSample])]
    simpa [bytesOfSample] using bytesOfSample_append x
  · rw [ramByte_storeBytes_out _ (by simp [bytesOfSample]; omega), ramByte_storeBytes_out _ (by simp [bytesOfSample]; omega)]

/-- MSG[i] after a write of MSG[j]. -/
theorem msg_setMsg (s : State) (j i : Nat) (b : Byte) :
    (s.setMsg j b).msg i = if i = j then b else s.msg i := by
  simp only [State.setMsg_eq, State.msg, msgAddr]
  split
  · subst i
    rw [ramByte_storeBytes, dif_pos (by simp)]
    simp
  · rw [ramByte_storeBytes_out _ (by simp; omega)]

theorem getElem_flatMap_eight {α : Type} (f : α → List Byte) (hf : ∀ z, (f z).length = 8) (l : List α) (k j : Nat)
    (hj : j < 8) : (l.flatMap f)[8 * k + j]? = l[k]?.bind fun z => (f z)[j]? := by
  induction l generalizing k with
  | nil => simp
  | cons z l ih =>
    rw [List.flatMap_cons]
    cases k with
    | zero => rw [List.getElem?_append_left (by rw [hf]; omega)]; simp
    | succ k =>
      rw [List.getElem?_append_right (by rw [hf]; omega), hf, show 8 * (k + 1) + j - 8 = 8 * k + j by omega, ih]
      simp

theorem length_flatMap_eight {α : Type} (f : α → List Byte) (hf : ∀ z, (f z).length = 8) (l : List α) :
    (l.flatMap f).length = 8 * l.length := by
  induction l with
  | nil => simp
  | cons z l ih => rw [List.flatMap_cons, List.length_append, hf, ih, List.length_cons]; omega

theorem length_bytesOfWord (w : Word) : (bytesOfWord w).length = 4 := rfl

/-- A RAM byte outside the bins that were written. -/
theorem ramByte_setSpec_out (s : State) (bins : List (Word × Word)) {x : Nat}
    (h : x < specAddr 0 ∨ specAddr bins.length ≤ x) : (s.setSpec bins).ramByte x = s.ramByte x := by
  rw [State.setSpec, ramByte_storeBytes_out]
  rw [length_flatMap_eight _ (by intro z; rfl)]
  simp only [specAddr] at h ⊢
  omega

theorem ramByte_setSpec_in (s : State) (bins : List (Word × Word)) (k j : Nat) (hk : k < bins.length) (hj : j < 8) :
    (s.setSpec bins).ramByte (specAddr k + j) =
      ((bytesOfWord bins[k].1 ++ bytesOfWord bins[k].2)[j]?).getD 0 := by
  rw [State.setSpec, State.ramByte, State.storeBytes_mem, Memory.lookup_store, length_flatMap_eight _ (by intro z; rfl),
    if_pos (by simp only [specAddr]; omega), show specAddr k + j - specAddr 0 = 8 * k + j by simp only [specAddr]; omega,
    getElem_flatMap_eight _ (by intro z; rfl) _ _ _ hj, List.getElem?_eq_getElem hk, Option.bind_some,
    List.getElem?_eq_getElem (by simpa [length_bytesOfWord] using hj)]
  rfl

/-- SPEC[k].re after the bins were written. -/
theorem specRe_setSpec (s : State) (bins : List (Word × Word)) (k : Nat) :
    (s.setSpec bins).specRe k = if h : k < bins.length then bins[k].1 else s.specRe k := by
  split
  · rename_i h
    simp only [State.specRe, State.ramWord]
    rw [ramByte_setSpec_in s bins k 3 h (by omega), ramByte_setSpec_in s bins k 2 h (by omega),
      ramByte_setSpec_in s bins k 1 h (by omega), show specAddr k = specAddr k + 0 from rfl,
      ramByte_setSpec_in s bins k 0 h (by omega)]
    simpa [bytesOfWord] using bytesOfWord_append bins[k].1
  · rename_i h
    simp only [State.specRe, State.ramWord]
    rw [ramByte_setSpec_out, ramByte_setSpec_out, ramByte_setSpec_out, ramByte_setSpec_out] <;>
      (simp only [specAddr]; omega)

/-- SPEC[k].im after the bins were written. -/
theorem specIm_setSpec (s : State) (bins : List (Word × Word)) (k : Nat) :
    (s.setSpec bins).specIm k = if h : k < bins.length then bins[k].2 else s.specIm k := by
  split
  · rename_i h
    simp only [State.specIm, State.ramWord]
    rw [show specAddr k + 4 + 3 = specAddr k + 7 from rfl, show specAddr k + 4 + 2 = specAddr k + 6 from rfl,
      show specAddr k + 4 + 1 = specAddr k + 5 from rfl,
      ramByte_setSpec_in s bins k 7 h (by omega), ramByte_setSpec_in s bins k 6 h (by omega),
      ramByte_setSpec_in s bins k 5 h (by omega), ramByte_setSpec_in s bins k 4 h (by omega)]
    simpa [bytesOfWord] using bytesOfWord_append bins[k].2
  · rename_i h
    simp only [State.specIm, State.ramWord]
    rw [ramByte_setSpec_out, ramByte_setSpec_out, ramByte_setSpec_out, ramByte_setSpec_out] <;>
      (simp only [specAddr]; omega)

end Sys2Proof.Machine
end

