-- ==== Sys2Proof/Laws/PerInstr.lean ====
section
/-!
SUPPORT. The family Encodable: what holds of every instruction as syntax. Its access is one the bus accepts (20 R82, R83), and the
instruction is well formed (30 R111).
-/

namespace Sys2Proof.Laws.Encodable

/-- The instruction is well formed and its access is 32 bits wide, aligned and at a mapped offset. -/
def Statement (i : Instr) : Prop := i.wellFormed = true ∧ (encode i).wellFormed = true

theorem nop : Statement .nop := ⟨rfl, rfl⟩

theorem winClear : Statement .winClear := ⟨rfl, rfl⟩

theorem fft : Statement .fft := ⟨rfl, rfl⟩

theorem peaks : Statement .peaks := ⟨rfl, rfl⟩

theorem classify : Statement .classify := ⟨rfl, rfl⟩

theorem decode : Statement .decode := ⟨rfl, rfl⟩

theorem synStart : Statement .synStart := ⟨rfl, rfl⟩

theorem synStop : Statement .synStop := ⟨rfl, rfl⟩

theorem softReset : Statement .softReset := ⟨rfl, rfl⟩

theorem winPush (v : Word) : Statement (.winPush v) := by
  simp [Statement, Instr.wellFormed, encode, Access.wellFormed, Access.sizeOk, Access.aligned, Access.mapped, Access.size,
    Access.off, Offset.unmapped]

theorem synRead : Statement .synRead := ⟨rfl, rfl⟩

theorem statusW1c (v : Word) : Statement (.statusW1c v) := by
  simp [Statement, Instr.wellFormed, encode, Access.wellFormed, Access.sizeOk, Access.aligned, Access.mapped, Access.size,
    Access.off, Offset.unmapped]

end Sys2Proof.Laws.Encodable
end

