-- ==== Sys2Proof/Laws/Step.lean ====
section
/-!
SUPPORT. What a step and each shared operation can do, said once: the inversion lemmas that the proofs cite.
-/

namespace Sys2Proof.Machine

open Sys2Proof.Safety

/-- A step is the move it takes, on the state without its input. -/
theorem step_eq (s : State) : step s = perform (moveOf s) { s with inputs := s.inputs.tail } := by
  unfold step takeTurn moveOf
  cases h : s.inputs with
  | nil => cases s; cases h; rfl
  | cons e rest => rfl

/-- What a host access can do: run an instruction, load, store, or be rejected. -/
theorem hostAccess_cases {a : Access} {s t : State} (h : hostAccess a s = .next t) :
    (∃ i, decode a = .instr i ∧ exec i s = .next t) ∨
    (∃ r, decode a = .load r ∧ t = s.load r) ∨
    (∃ r v, decode a = .store r v ∧ t = s.store r v) ∨
    (∃ why, decode a = .rejected why ∧ t = s.reject why) := by
  unfold hostAccess at h
  split at h
  · exact .inl ⟨_, ‹_›, h⟩
  · cases h; exact .inr (.inl ⟨_, ‹_›, rfl⟩)
  · cases h; exact .inr (.inr (.inl ⟨_, _, ‹_›, rfl⟩))
  · cases h; exact .inr (.inr (.inr ⟨_, ‹_›, rfl⟩))

/-- What a move can do. -/
theorem perform_cases {e : Input} {s t : State} (h : perform e s = .next t) :
    (∃ a, e = .host a ∧ hostAccess a s = .next t) ∨ (e = .engine ∧ t = s.engineTurn) ∨
    (e = .resetPin ∧ t = s.resetCore) := by
  cases e with
  | host a => exact .inl ⟨a, rfl, h⟩
  | engine => cases h; exact .inr (.inl ⟨rfl, rfl⟩)
  | resetPin => cases h; exact .inr (.inr ⟨rfl, rfl⟩)

/-- What a turn of the ENGINE can do (20 R95). -/
theorem engineTurn_cases (s : State) :
    (s.eng = .idle ∧ s.engineTurn = s) ∨ ∃ c, s.eng = .busy c ∧ s.engineTurn = s.complete c := by
  unfold State.engineTurn
  cases h : s.eng with
  | idle => exact .inl ⟨rfl, rfl⟩
  | busy c => exact .inr ⟨c, rfl, rfl⟩

/-- What a CMD write of an analysis command can do (30 R113, R114). -/
theorem startAnalysis_cases (s : State) (c : Analysis) :
    (s.eng = .idle ∧ s.startAnalysis c = { s with eng := .busy c }.respond .ok) ∨
    (s.eng ≠ .idle ∧ s.startAnalysis c = s.refuse .busy) := by
  unfold State.startAnalysis
  by_cases h : s.eng = .idle
  · rw [if_neg (by simp [h])]; exact .inl ⟨h, rfl⟩
  · rw [if_pos (by simp [h])]; exact .inr ⟨h, rfl⟩

/-- What a push can do (44 R212). -/
theorem execWinPush_cases (v : Word) (s : State) :
    (s.eng ≠ .idle ∧ execWinPush v s = .next (s.refuse .busy)) ∨
    (s.eng = .idle ∧ s.windowLength ≤ s.winCount.toNat ∧ execWinPush v s = .next (s.refuse .ovf)) ∨
    (s.eng = .idle ∧ s.winCount.toNat < s.windowLength ∧ execWinPush v s =
      .next ({ s.setWin s.winCount.toNat (v.extractLsb' 0 16) with winCount := s.winCount + 1 }.respond .ok)) := by
  unfold execWinPush
  by_cases h : s.eng = .idle
  · rw [if_neg (by simp [h])]
    by_cases hc : s.windowLength ≤ s.winCount.toNat
    · rw [if_pos hc]; exact .inr (.inl ⟨h, hc, rfl⟩)
    · rw [if_neg hc]; exact .inr (.inr ⟨h, by omega, rfl⟩)
  · rw [if_pos (by simp [h])]; exact .inl ⟨h, rfl⟩

/-- What WIN_CLEAR can do (44 R213). -/
theorem execWinClear_cases (s : State) :
    (s.eng ≠ .idle ∧ execWinClear s = .next (s.refuse .busy)) ∨
    (s.eng = .idle ∧ execWinClear s = .next ({ s with winCount := 0 }.respond .ok)) := by
  unfold execWinClear
  by_cases h : s.eng = .idle
  · rw [if_neg (by simp [h])]; exact .inr ⟨h, rfl⟩
  · rw [if_pos (by simp [h])]; exact .inl ⟨h, rfl⟩

/-- What a SYN_DATA read can do (43 R195). -/
theorem execSynRead_cases (s : State) :
    (s.synActive = true ∧
      execSynRead s = .next (s.advanceSynth.respond (.data ((BitVec.ofInt 16 s.synSample).signExtend 32)))) ∨
    (s.synActive = false ∧ execSynRead s = .next (s.respond (.data 0))) := by
  unfold execSynRead
  cases h : s.synActive
  · exact .inr ⟨rfl, rfl⟩
  · exact .inl ⟨rfl, rfl⟩

/-- What a plain load can do (45 R237, 20 R99). -/
theorem load_cases (s : State) (r : Reg) :
    (s.readsAny r = true ∧ s.load r = s.respondAny) ∨
    (s.readsAny r = false ∧ s.load r = s.respond (.data (s.regValue r))) := by
  unfold State.load
  cases h : s.readsAny r
  · exact .inr ⟨rfl, rfl⟩
  · exact .inl ⟨rfl, rfl⟩

/-- What a plain store can do (45 R236, 60 R252). -/
theorem store_cases (s : State) (r : Reg) (v : Word) :
    (s.storeRefused r = true ∧ s.store r v = s.refuse .busy) ∨
    (s.storeRefused r = false ∧ s.store r v = (s.writeReg v r).respond .ok) := by
  unfold State.store
  cases h : s.storeRefused r
  · exact .inr ⟨rfl, rfl⟩
  · exact .inl ⟨rfl, rfl⟩

/-- What a rejected access does: one error flag and the bus answer (60 R250). -/
theorem reject_cases (s : State) (why : Reject) :
    s.reject why = s.raiseBusError ∨ s.reject why = s.refuse .illegal := by
  cases why <;> simp [State.reject]

/-- What an instruction can do: one of the eleven effects, or a refusal (30 R113, R117). -/
theorem exec_cases {i : Instr} {s t : State} (h : exec i s = .next t) :
    (∃ f, t = s.refuse f) ∨
    (i = .nop ∧ t = s.respond .ok) ∨
    (i = .winClear ∧ s.eng = .idle ∧ t = { s with winCount := 0 }.respond .ok) ∨
    (∃ c : Analysis, s.eng = .idle ∧ t = { s with eng := .busy c }.respond .ok) ∨
    (i = .synStart ∧ t = { s with
      synPos := 0, accLo := Vector.replicate 8 0, accHi := Vector.replicate 8 0, synActive := true }.respond .ok) ∨
    (i = .synStop ∧ t = { s with synActive := false }.respond .ok) ∨
    (i = .softReset ∧ t = s.resetCore.respond .ok) ∨
    (∃ v, i = .winPush v ∧ s.eng = .idle ∧ s.winCount.toNat < s.windowLength ∧
      t = { s.setWin s.winCount.toNat (v.extractLsb' 0 16) with winCount := s.winCount + 1 }.respond .ok) ∨
    (i = .synRead ∧ s.synActive = true ∧ ∃ r, t = s.advanceSynth.respond r) ∨
    (i = .synRead ∧ s.synActive = false ∧ ∃ r, t = s.respond r) ∨
    (∃ v, i = .statusW1c v ∧ t = (s.clearFlags v).respond .ok) := by
  have start : ∀ c, exec i s = .next (s.startAnalysis c) →
      (∃ f, t = s.refuse f) ∨ ∃ c : Analysis, s.eng = .idle ∧ t = { s with eng := .busy c }.respond .ok := by
    intro c hc
    cases hc.symm.trans h
    rcases startAnalysis_cases s c with ⟨h, e⟩ | ⟨_, e⟩
    · exact .inr ⟨c, h, e⟩
    · exact .inl ⟨_, e⟩
  cases i with
  | nop => cases h; exact .inr (.inl ⟨rfl, rfl⟩)
  | winClear =>
    rcases execWinClear_cases s with ⟨_, e⟩ | ⟨hi, e⟩ <;> cases e.symm.trans h
    · exact .inl ⟨_, rfl⟩
    · exact .inr (.inr (.inl ⟨rfl, hi, rfl⟩))
  | fft => rcases start .fft rfl with h | h <;> simp only [h, true_or, or_true]
  | peaks => rcases start .peaks rfl with h | h <;> simp only [h, true_or, or_true]
  | classify => rcases start .classify rfl with h | h <;> simp only [h, true_or, or_true]
  | decode => rcases start .decode rfl with h | h <;> simp only [h, true_or, or_true]
  | synStart => cases h; exact .inr (.inr (.inr (.inr (.inl ⟨rfl, rfl⟩))))
  | synStop => cases h; exact .inr (.inr (.inr (.inr (.inr (.inl ⟨rfl, rfl⟩)))))
  | softReset => cases h; exact .inr (.inr (.inr (.inr (.inr (.inr (.inl ⟨rfl, rfl⟩))))))
  | winPush v =>
    rcases execWinPush_cases v s with ⟨_, e⟩ | ⟨_, _, e⟩ | ⟨hi, hw, e⟩ <;> cases e.symm.trans h
    · exact .inl ⟨_, rfl⟩
    · exact .inl ⟨_, rfl⟩
    · exact .inr (.inr (.inr (.inr (.inr (.inr (.inr (.inl ⟨v, rfl, hi, hw, rfl⟩)))))))
  | synRead =>
    rcases execSynRead_cases s with ⟨hi, e⟩ | ⟨hi, e⟩ <;> cases e.symm.trans h
    · exact .inr (.inr (.inr (.inr (.inr (.inr (.inr (.inr (.inl ⟨rfl, hi, _, rfl⟩))))))))
    · exact .inr (.inr (.inr (.inr (.inr (.inr (.inr (.inr (.inr (.inl ⟨rfl, hi, _, rfl⟩)))))))))
  | statusW1c v =>
    cases h; exact .inr (.inr (.inr (.inr (.inr (.inr (.inr (.inr (.inr (.inr ⟨v, rfl, rfl⟩)))))))))

/-- What a refused access does: one error flag, the bus answer, nothing else (60 R250). -/
theorem onlyRaises_setErr (s : State) (f : ErrFlag) (r : Response) : OnlyRaises f s ((s.setErr f).respond r) := by
  cases f <;> constructor <;> simp [State.setErr, State.respond] <;>
    first
      | exact ⟨rfl, rfl⟩
      | exact ⟨⟨rfl, rfl, rfl, rfl, rfl, rfl, rfl, rfl, rfl, rfl, rfl⟩, ⟨rfl, rfl⟩, ⟨rfl, rfl, rfl, rfl, rfl⟩,
          ⟨rfl, rfl, rfl, rfl⟩, rfl, fun _ => rfl, ⟨rfl, rfl⟩⟩

/-- What a step can do, by the move it takes on the state without its input (20 R93, R95, R97). -/
theorem step_cases {s t : State} (h : step s = .next t) : ∃ s' : State, s' = { s with inputs := s.inputs.tail } ∧
    ((moveOf s = .engine ∧ s'.eng = .idle ∧ t = s') ∨
     (moveOf s = .engine ∧ ∃ c, s'.eng = .busy c ∧ t = s'.complete c) ∨
     (moveOf s = .resetPin ∧ t = s'.resetCore) ∨
     (∃ a i, moveOf s = .host a ∧ decode a = .instr i ∧ exec i s' = .next t) ∨
     (∃ a r, moveOf s = .host a ∧ decode a = .load r ∧ (t = s'.respondAny ∨ ∃ w, t = s'.respond w)) ∨
     (∃ a r v, moveOf s = .host a ∧ decode a = .store r v ∧ s'.storeRefused r = true ∧ t = s'.refuse .busy) ∨
     (∃ a r v, moveOf s = .host a ∧ decode a = .store r v ∧ s'.storeRefused r = false ∧
       t = (s'.writeReg v r).respond .ok) ∨
     (∃ a why, moveOf s = .host a ∧ decode a = .rejected why ∧ (t = s'.raiseBusError ∨ t = s'.refuse .illegal))) := by
  rw [step_eq] at h
  refine ⟨_, rfl, ?_⟩
  rcases perform_cases h with ⟨a, hm, e⟩ | ⟨hm, e⟩ | ⟨hm, e⟩
  · rw [hm]
    rcases hostAccess_cases e with ⟨i, hd, e⟩ | ⟨r, hd, e⟩ | ⟨r, v, hd, e⟩ | ⟨w, hd, e⟩
    · exact .inr (.inr (.inr (.inl ⟨a, i, rfl, hd, e⟩)))
    · refine .inr (.inr (.inr (.inr (.inl ⟨a, r, rfl, hd, ?_⟩))))
      rcases load_cases { s with inputs := s.inputs.tail } r with ⟨_, e'⟩ | ⟨_, e'⟩ <;> rw [e, e']
      · exact .inl rfl
      · exact .inr ⟨_, rfl⟩
    · rcases store_cases { s with inputs := s.inputs.tail } r v with ⟨hr, e'⟩ | ⟨hr, e'⟩
      · exact .inr (.inr (.inr (.inr (.inr (.inl ⟨a, r, v, rfl, hd, hr, e.trans e'⟩)))))
      · exact .inr (.inr (.inr (.inr (.inr (.inr (.inl ⟨a, r, v, rfl, hd, hr, e.trans e'⟩))))))
    · refine .inr (.inr (.inr (.inr (.inr (.inr (.inr ⟨a, w, rfl, hd, ?_⟩))))))
      rcases reject_cases { s with inputs := s.inputs.tail } w with e' | e'
      · exact .inl (e.trans e')
      · exact .inr (e.trans e')
  · rw [hm]
    rcases engineTurn_cases { s with inputs := s.inputs.tail } with ⟨h1, h2⟩ | ⟨c, h1, h2⟩
    · exact .inl ⟨rfl, h1, e.trans h2⟩
    · exact .inr (.inl ⟨rfl, c, h1, e.trans h2⟩)
  · rw [hm]; exact .inr (.inr (.inl ⟨rfl, e⟩))

/-- A host access to a register, read or written (30 R117). -/
theorem hostAccess_read (r : Reg) (s : State) (h : r ≠ .synData) :
    hostAccess (.read r.offset 4) s = .next (s.load r) := by
  unfold hostAccess
  rw [decode_read]
  cases r <;> first | rfl | exact absurd rfl h

theorem hostAccess_write (r : Reg) (v : Word) (s : State) (h : r ≠ .cmd) (h' : r ≠ .status) (h'' : r ≠ .winData) :
    hostAccess (.write r.offset 4 v) s = .next (s.store r v) := by
  unfold hostAccess
  rw [decode_write]
  cases r <;> first | rfl | exact absurd rfl h | exact absurd rfl h' | exact absurd rfl h''

/-! ## The register operations against the spec's tables -/

/-- The interlock test is the table of 60 R252. -/
theorem storeRefused_iff (s : State) (r : Reg) : s.storeRefused r = true ↔ Interlocked s r := by
  cases r <;> simp [State.storeRefused, lockedByEngine, lockedBySynth, Interlocked]

/-- The reads that answer any value are those of the BUSY command's outputs (20 R99). -/
theorem readsAny_iff (s : State) (r : Reg) : s.readsAny r = true ↔ ∃ c, s.eng = .busy c ∧ OutputReg s c r := by
  unfold State.readsAny
  cases he : s.eng with
  | idle => simp
  | busy c =>
    cases c <;> cases r <;>
      simp [State.outputOf, State.fftOutput, peaksOutput, classifyOutput, windowOutput, State.windowLength, OutputReg]
    all_goals exact decide_eq_true_iff

/-- A register's value is the number its fields give (10 R22 to R46). -/
theorem regValue_toNat (s : State) (r : Reg) : (s.regValue r).toNat = wordOf s r := by
  cases r with
  | status =>
    have h : ∀ a b c d e f g h : Bool, (0#22 ++ BitVec.ofBool a ++ BitVec.ofBool b ++
        BitVec.ofBool c ++ BitVec.ofBool d ++ BitVec.ofBool e ++ BitVec.ofBool f ++
        0#2 ++ BitVec.ofBool g ++ BitVec.ofBool h : Word).toNat =
      h.toNat + 2 * g.toNat + 16 * f.toNat + 32 * e.toNat + 64 * d.toNat + 128 * c.toNat + 256 * b.toNat +
        512 * a.toNat := by decide
    refine (h ..).trans ?_
    have h1 : s.isBusy.toNat = if s.eng = .idle then 0 else 1 := by
      unfold State.isBusy; cases s.eng <;> rfl
    have h2 : 512 * s.synDone.toNat = if s.symLen.toNat * s.synLen.toNat ≤ s.synPos.toNat then 512 else 0 := by
      unfold State.synDone; split <;> simp_all
    simp only [wordOf, h1, h2]
  | winView i =>
    simp only [State.regValue, wordOf, State.xw]
    split
    · rw [← BitVec.toInt_signExtend_of_le (by omega : 16 ≤ 32), BitVec.toInt_eq_toNat_cond]
      split <;> omega
    · rfl
  | result =>
    have h : ∀ d v : Bool, ∀ m b : BitVec 8, (0#14 ++ BitVec.ofBool d ++ BitVec.ofBool v ++ m ++ b : Word).toNat =
        b.toNat + 256 * m.toNat + 65536 * v.toNat + 131072 * d.toNat := by
      intro d v m b
      have low : ∀ {w : Nat} (x : BitVec w) (y : BitVec 8), (x ++ y).toNat = x.toNat * 256 + y.toNat := fun x y => by
        rw [BitVec.toNat_append, ← Nat.shiftLeft_add_eq_or_of_lt y.isLt, Nat.shiftLeft_eq]
      rw [low, low]
      cases d <;> cases v <;> simp <;> omega
    exact h ..
  | cfg => 
    have h : ∀ p l : BitVec 4, (0#20 ++ p ++ 0#4 ++ l : Word).toNat = p.toNat * 256 + l.toNat := by decide
    exact h ..
  | peakMagLo j => simp [State.regValue, wordOf, BitVec.extractLsb'_toNat]
  | peakMagHi j => 
    have := (s.peaks.get j).mag.isLt
    simp [State.regValue, wordOf, BitVec.extractLsb'_toNat, Nat.shiftRight_eq_div_pow]
    omega
  | msg i => simp [State.regValue, wordOf, State.msg, msgAddr]; omega
  | id => rfl
  | param => rfl
  | cmd => rfl
  | winData => rfl
  | synData => rfl
  | _ => simp [State.regValue, wordOf] <;> omega

/-! ## The updates that write several fields -/

/-- A store of a register leaves alone what no register write can reach (45 R236). -/
theorem writeReg_frame (s : State) (v : Word) (r : Reg) :
    SameEngine s (s.writeReg v r) ∧ SameErrors s (s.writeReg v r) ∧ SamePeaks s (s.writeReg v r) ∧
    SameResult s (s.writeReg v r) ∧ SameSynth s (s.writeReg v r) ∧ SameOutside s (s.writeReg v r) := by
  cases r <;> exact ⟨⟨rfl, rfl⟩, ⟨rfl, rfl, rfl, rfl⟩, ⟨rfl, rfl⟩, ⟨rfl, rfl, rfl, rfl, rfl⟩, ⟨rfl, rfl, rfl, rfl⟩, ⟨rfl, rfl⟩⟩

/-- A completion leaves alone what no command writes (20 R99, R101). -/
theorem completionOf_frame (c : Analysis) (s : State) :
    SameEngine s (completionOf c s) ∧ SameErrors s (completionOf c s) ∧ SameConfig s (completionOf c s) ∧
    SameSynth s (completionOf c s) ∧ SameOutside s (completionOf c s) := by
  have all : ∀ t : State, t = completeFft s ∨ t = completePeaks s ∨ t = completeClassify s ∨ t = completeDecode s →
      SameEngine s t ∧ SameErrors s t ∧ SameConfig s t ∧ SameSynth s t ∧ SameOutside s t := by
    rintro t (rfl | rfl | rfl | rfl)
    · exact ⟨⟨rfl, rfl⟩, ⟨rfl, rfl, rfl, rfl⟩, ⟨rfl, rfl, rfl, rfl, rfl, rfl, rfl, rfl, rfl, rfl, rfl⟩,
        ⟨rfl, rfl, rfl, rfl⟩, ⟨rfl, rfl⟩⟩
    · exact ⟨⟨rfl, rfl⟩, ⟨rfl, rfl, rfl, rfl⟩, ⟨rfl, rfl, rfl, rfl, rfl, rfl, rfl, rfl, rfl, rfl, rfl⟩,
        ⟨rfl, rfl, rfl, rfl⟩, ⟨rfl, rfl⟩⟩
    · exact ⟨⟨rfl, rfl⟩, ⟨rfl, rfl, rfl, rfl⟩, ⟨rfl, rfl, rfl, rfl, rfl, rfl, rfl, rfl, rfl, rfl, rfl⟩,
        ⟨rfl, rfl, rfl, rfl⟩, ⟨rfl, rfl⟩⟩
    · unfold completeDecode
      by_cases h : s.winCount.toNat < s.minSamples.toNat
      · rw [if_pos h]
        exact ⟨⟨rfl, rfl⟩, ⟨rfl, rfl, rfl, rfl⟩, ⟨rfl, rfl, rfl, rfl, rfl, rfl, rfl, rfl, rfl, rfl, rfl⟩,
          ⟨rfl, rfl, rfl, rfl⟩, ⟨rfl, rfl⟩⟩
      · rw [if_neg h]
        exact ⟨⟨rfl, rfl⟩, ⟨rfl, rfl, rfl, rfl⟩, ⟨rfl, rfl, rfl, rfl, rfl, rfl, rfl, rfl, rfl, rfl, rfl⟩,
          ⟨rfl, rfl, rfl, rfl⟩, ⟨rfl, rfl⟩⟩
  cases c
  · exact all _ (.inl rfl)
  · exact all _ (.inr (.inl rfl))
  · exact all _ (.inr (.inr (.inl rfl)))
  · exact all _ (.inr (.inr (.inr rfl)))

/-- DECODE either drops the window or runs the three units, and consumes it (44 R217). -/
theorem completeDecode_cases (s : State) :
    (s.winCount.toNat < s.minSamples.toNat ∧ completeDecode s = { s.dropWindow with winCount := 0 }) ∨
    (s.minSamples.toNat ≤ s.winCount.toNat ∧
      completeDecode s = { completeClassify (completePeaks (completeFft s)) with winCount := 0 }) := by
  unfold completeDecode
  by_cases h : s.winCount.toNat < s.minSamples.toNat
  · rw [if_pos h]; exact .inl ⟨h, rfl⟩
  · rw [if_neg h]; exact .inr ⟨by omega, rfl⟩

/-- What each completion can write: the outputs that 20 R99 lists for the command, DONE and ENG. -/
theorem complete_cases (s : State) (c : Analysis) :
    (c = .fft ∧ s.complete c = { completeFft s with done := true, eng := .idle }) ∨
    (c = .peaks ∧ ∃ p n, s.complete c = { s with peaks := p, peakCnt := n, done := true, eng := .idle }) ∨
    (c = .classify ∧ ∃ a b d e f, s.complete c = { s with
      resByte := a, resMatched := b, resValid := d, resDropped := e, matchFreq := f, done := true, eng := .idle }) ∨
    (c = .decode ∧ ∃ a b d e f p n m, (m = s.mem ∨ m = (completeFft s).mem) ∧ s.complete c = { s with
      resByte := a, resMatched := b, resValid := d, resDropped := e, matchFreq := f, peaks := p, peakCnt := n,
      mem := m, winCount := 0, done := true, eng := .idle }) := by
  cases c with
  | fft => exact .inl ⟨rfl, rfl⟩
  | peaks => exact .inr (.inl ⟨rfl, _, _, rfl⟩)
  | classify => exact .inr (.inr (.inl ⟨rfl, _, _, _, _, _, rfl⟩))
  | decode =>
    refine .inr (.inr (.inr ⟨rfl, ?_⟩))
    unfold State.complete completionOf
    rcases completeDecode_cases s with ⟨_, e⟩ | ⟨_, e⟩ <;> simp only [e]
    · exact ⟨_, _, _, _, _, _, _, _, .inl rfl, rfl⟩
    · exact ⟨_, _, _, _, _, _, _, _, .inr rfl, rfl⟩

/-- The only memory a register store can change is MSG[i] (45 R236). -/
theorem writeReg_mem (s : State) (v : Word) (r : Reg) :
    (s.writeReg v r).mem = s.mem ∨
    ∃ i, r = .msg i ∧ (s.writeReg v r).mem = (s.setMsg i.val (v.extractLsb' 0 8)).mem := by
  cases r <;> first | exact .inl rfl | exact .inr ⟨_, rfl, rfl⟩

end Sys2Proof.Machine
end

