-- ==== Sys2Proof/Laws/Units.lean ====
section
/-!
SUPPORT. The laws of the units' shared operations: the lengths and ranges the transform, the extractor and the synthesizer keep.
-/

namespace Sys2Proof.Machine

open Sys2Proof.Safety

/-! ## The window -/

/-- N is 8 to 4096 for every legal CFG (10 R27). -/
theorem windowLength_bounds {s : State} (h : LegalRegs s) : 8 ≤ s.windowLength ∧ s.windowLength ≤ 4096 :=
  ⟨Nat.pow_le_pow_right (n := 2) (by omega) h.log2n_lo, Nat.pow_le_pow_right (n := 2) (by omega) h.log2n_hi⟩

/-- xw[i] after a push of x (44 R212). -/
theorem xw_push (s : State) (x : Sample) (n : BitVec 13) (hn : n.toNat = s.winCount.toNat + 1) (i : Nat) :
    ({ s.setWin s.winCount.toNat x with winCount := n } : State).xw i = if i = s.winCount.toNat then x else s.xw i := by
  have e : ({ s.setWin s.winCount.toNat x with winCount := n } : State).win i = (s.setWin s.winCount.toNat x).win i := rfl
  unfold State.xw
  rw [e, win_setWin]
  simp only [hn]
  split_ifs <;> first | rfl | omega

/-! ## The transform (40 R132) -/

theorem length_evens_odds : ∀ l : List Cplx, (evens l).length = (l.length + 1) / 2 ∧ (odds l).length = l.length / 2
  | [] => by simp [evens, odds]
  | [_] => by simp [evens, odds]
  | _ :: _ :: t => by
    have h := length_evens_odds t
    simp only [evens, odds, List.length_cons, h]
    omega

theorem length_fft (l : Nat) (a : List Cplx) (h : a.length = 2 ^ l) : (fft l a).length = 2 ^ l := by
  induction l generalizing a with
  | zero => exact h
  | succ l ih =>
    have := length_evens_odds a
    have e := ih (evens a) (by rw [this.1, h, pow_succ]; omega)
    have o := ih (odds a) (by rw [this.2, h, pow_succ]; omega)
    simp only [fft, butterflies, twiddled, List.length_append, List.length_zipWith, List.length_range, e, o, pow_succ]
    omega

theorem length_spectrum (s : State) : s.spectrum.length = s.windowLength := by
  unfold State.spectrum
  rw [length_fft]
  · rfl
  · simp [State.fftInput, State.windowLength]

/-! ## The extractor (41 R151, R152) -/

theorem sqMag_eq_exact (s : State) (b : Nat) : (s.sqMag b : Int) = exactSqMag s b := by
  simp [State.sqMag, exactSqMag]

/-- A squared magnitude fits the 64 bits of a slot (41 R151). -/
theorem sqMag_lt (s : State) (b : Nat) : s.sqMag b < 2 ^ 64 := by
  have h : ∀ w : Word, w.toInt.natAbs ≤ 2 ^ 31 := by
    intro w
    have := BitVec.toInt_lt (x := w)
    have := BitVec.le_toInt (x := w)
    omega
  have h1 := Nat.pow_le_pow_left (h (s.specRe b)) 2
  have h2 := Nat.pow_le_pow_left (h (s.specIm b)) 2
  have : (2 ^ 31) ^ 2 = 2 ^ 62 := by norm_num
  unfold State.sqMag
  omega

theorem mem_candidates (s : State) (c : Candidate) :
    c ∈ s.candidates ↔ 1 ≤ c.bin ∧ c.bin ≤ s.windowLength / 2 - 1 ∧ c.mag = s.sqMag c.bin := by
  obtain ⟨m, b⟩ := c
  simp only [State.candidates, List.mem_map, List.mem_range, Candidate.mk.injEq]
  constructor
  · rintro ⟨i, hi, rfl, rfl⟩
    exact ⟨by omega, by omega, rfl⟩
  · rintro ⟨h1, h2, rfl⟩
    exact ⟨b - 1, by omega, by congr 1; omega, by omega⟩

theorem ranked_perm (s : State) : s.ranked.Perm s.candidates := List.perm_insertionSort _ _

theorem length_ranked (s : State) : s.ranked.length = s.windowLength / 2 - 1 := by
  rw [(ranked_perm s).length_eq]
  simp [State.candidates]

theorem nodup_ranked (s : State) : (s.ranked.map Candidate.bin).Nodup := by
  refine ((ranked_perm s).map _).nodup_iff.2 ?_
  simp only [State.candidates, List.map_map]
  exact List.nodup_range.map fun a b h => by simpa using h

theorem pairwise_ranked (s : State) : s.ranked.Pairwise Candidate.ranksBefore := by
  have : Std.Total Candidate.ranksBefore := ⟨fun a b => by unfold Candidate.ranksBefore; omega⟩
  have : IsTrans Candidate Candidate.ranksBefore := ⟨fun a b c => by unfold Candidate.ranksBefore; omega⟩
  exact List.pairwise_insertionSort _ _

/-- A slot below the count holds the candidate of its rank (41 R154). -/
theorem slot_lt (s : State) (j : Nat) (h : j < s.slotCount) : ∃ hl : j < s.ranked.length,
    s.slot s.ranked j =
      ⟨BitVec.ofNat 12 s.ranked[j].bin, BitVec.ofNat 32 (s.freqRaw s.ranked[j].bin), BitVec.ofNat 64 s.ranked[j].mag⟩ := by
  have hl : j < s.ranked.length := by
    rw [length_ranked]
    unfold State.slotCount at h
    omega
  exact ⟨hl, by rw [State.slot, if_pos h, List.getElem?_eq_getElem hl]⟩

/-! ## The classifier (42 R167) -/

theorem toneDiff_eq_distance (f t : Word) : (toneDiff f t : Int) = distance f t := by
  simp [toneDiff, distance]

/-- Position i of an assembled byte is its bit 7 - i (42 R170, 30 R119). -/
theorem byteOfBits_getLsbD (bit : Fin 8 → Bool) (i : Fin 8) : (byteOfBits bit).getLsbD (7 - i.val) = bit i := by
  have all : ∀ a b c d e f g h : Bool,
      let w : Byte := BitVec.ofBool a ++ BitVec.ofBool b ++ BitVec.ofBool c ++ BitVec.ofBool d ++ BitVec.ofBool e ++
        BitVec.ofBool f ++ BitVec.ofBool g ++ BitVec.ofBool h
      w.getLsbD 7 = a ∧ w.getLsbD 6 = b ∧ w.getLsbD 5 = c ∧ w.getLsbD 4 = d ∧ w.getLsbD 3 = e ∧ w.getLsbD 2 = f ∧
        w.getLsbD 1 = g ∧ w.getLsbD 0 = h := by decide
  obtain ⟨h0, h1, h2, h3, h4, h5, h6, h7⟩ :=
    all (bit 0) (bit 1) (bit 2) (bit 3) (bit 4) (bit 5) (bit 6) (bit 7)
  fin_cases i <;> assumption

/-- Position i of MATCHED is its bit i (42 R172). -/
theorem matchedBits_getLsbD (hit : Fin 8 → Bool) (i : Fin 8) : (matchedBits hit).getLsbD i.val = hit i := by
  have h := byteOfBits_getLsbD (fun j => hit j.rev) i.rev
  rw [Fin.rev_rev] at h
  rw [← h, matchedBits]
  congr 1
  rw [Fin.val_rev]
  omega

/-- The frequencies the scan visits are the detected ones (42 R166). -/
theorem mem_detected (s : State) (f : Word) : f ∈ s.detected ↔ Detected s f := by
  unfold State.detected Detected
  rw [(List.perm_insertionSort _ _).mem_iff, List.mem_map]
  constructor
  · rintro ⟨p, hp, rfl⟩
    obtain ⟨i, hi, rfl⟩ := List.mem_iff_getElem.1 hp
    have hi' := hi
    simp only [List.length_take, Vector.length_toList, Nat.lt_min] at hi'
    exact ⟨⟨i, hi'.2⟩, hi'.1, by simp [Vector.get_eq_getElem]⟩
  · rintro ⟨j, hj, rfl⟩
    refine ⟨s.peaks.get j, List.mem_iff_getElem.2 ⟨j.val, by simp [hj], ?_⟩, rfl⟩
    simp [Vector.get_eq_getElem]

/-! ## The sine ROM (10 R41) -/

theorem getD_mem_or {α : Type} (l : List α) (i : Nat) (d : α) : l.getD i d ∈ l ∨ l.getD i d = d := by
  rcases Nat.lt_or_ge i l.length with h | h
  · rw [List.getD_eq_getElem _ _ h]; exact .inl (List.getElem_mem h)
  · exact .inr (List.getD_eq_default _ _ h)

theorem sineQuarter_range (r : Nat) : 0 ≤ sineQuarter r ∧ sineQuarter r ≤ 32768 := by
  have all : ∀ row ∈ sineRows, ∀ x ∈ row, x ≤ 32768 := by decide
  have : (sineRows.getD (r / 16) []).getD (r % 16) 0 ≤ 32768 := by
    rcases getD_mem_or (sineRows.getD (r / 16) []) (r % 16) 0 with h | h
    · rcases getD_mem_or sineRows (r / 16) [] with h' | h'
      · exact all _ h' _ h
      · rw [h'] at h; cases h
    · omega
  unfold sineQuarter
  omega

theorem sine_range (p : Nat) : -32768 ≤ sine p ∧ sine p ≤ 32768 := by
  have h1 := sineQuarter_range (p % 1024)
  have h2 := sineQuarter_range (1024 - p % 1024)
  unfold sine
  simp only
  split_ifs <;> constructor <;> omega

end Sys2Proof.Machine
end

