-- ==== Sys2Proof/Tests/Slice0.lean ====
section
/-!
SUPPORT. The model's own tests. Expected values come from the vectors of spec/95_test_vectors.md (named in each comment) or from
the encodings of spec/30_encoding.md; the witnesses at the end show that the premises of each statement can be met.
-/

namespace Sys2Proof.Tests

open Sys2Proof.Machine Sys2Proof.Safety

/-! ## Helpers -/

/-- The next state of an outcome that has one. -/
def after (o : Host.Outcome State Fault Refusal) (s : State) : State :=
  match o with
  | .next t => t
  | .fault _ => s
  | .refused _ => s

/-- The state after a 32-bit write. -/
def wr (off : Offset) (v : Word) (s : State) : State := after (hostAccess (.write off 4 v) s) s

/-- The state after a 32-bit read; its answer is in `response`. -/
def rd (off : Offset) (s : State) : State := after (hostAccess (.read off 4) s) s

/-- The state after the ENGINE's completion step. -/
def done (s : State) : State := after (perform .engine s) s

/-- N = 8, FS = 8000, MIN_SAMPLES = 2 (the configuration of program P2). -/
def short : State := { State.reset with log2n := 3, fs := 8000, minSamples := 2 }

/-- The window 0, 1000 of V-F-1 is pushed. -/
def pushed : State := wr 0x028 0x000003E8 (wr 0x028 0x00000000 short)

/-- V-F-1 after FFT. -/
def transformed : State := done (wr 0x008 0x2 pushed)

/-- V-P-1. -/
def extracted : State := done (wr 0x008 0x3 transformed)

/-- The peaks of V-P-1 written out, over no memory: the start state of the V-C vectors. -/
def peaked : State :=
  { short with
    peakCnt := 3
    peaks := #v[⟨2, 0x007D0000, 1000000⟩, ⟨3, 0x00BB8000, 999698⟩, ⟨1, 0x003E8000, 999698⟩, .zero, .zero, .zero, .zero, .zero] }

/-- FS = 8000, MSG[0] = 0x41, SYN_LEN = 1, SYM_LEN = 8, AMPL = 1.0 (program P1), the synthesizer started. -/
def playing : State :=
  wr 0x008 0x6 { State.reset with fs := 8000, synLen := 1, symLen := 8, ampl := 0x8000, mem := [(0x1000, 0x41)] }

/-- The engine is BUSY with FFT. -/
def busyFft : State := { short with eng := .busy .fft }

/-! ## Ill-formed accesses (20 R82, R83) -/

/-- V-E-11: a 16-bit access. -/
theorem test_illFormed_size : (Access.read 0x050 2).wellFormed = false ∧ (Access.read 0x050 2).sizeOk = false := by decide

/-- V-E-9, V-E-12: misaligned accesses. -/
theorem test_illFormed_alignment : (Access.read 0x002 4).wellFormed = false ∧ (Access.write 0x02A 4 0).aligned = false := by
  decide

/-- V-E-10: an unmapped offset, and both ends of the first and the last gap of 20 R81. -/
theorem test_illFormed_unmapped :
    (Access.write 0x02C 4 0).wellFormed = false ∧ (Access.read 0x02C 4).mapped = false ∧ (Access.read 0x1400 4).mapped = false ∧
    (Access.read 0x3FFC 4).mapped = false ∧ (Access.read 0x028 4).wellFormed = true ∧ (Access.read 0x030 4).wellFormed = true ∧
    (Access.read 0x13FC 4).wellFormed = true ∧ (Access.read 0x4000 4).wellFormed = true ∧
    (Access.read 0xFFFC 4).wellFormed = true := by
  decide

theorem test_instr_wellFormed : (Instr.winPush 0xFFFFFFFF).wellFormed = true := rfl

/-! ## Decoding: words written out bit by bit (30 R110 to R117) -/

/-- The control commands: bits 31:4 zero, CODE 0x0 and 0x8. -/
theorem test_decode_control :
    decodeTableWord 32 0b00000000000000000000000000000000 = some .nop ∧
    decodeTableWord 32 0b00000000000000000000000000001000 = some .softReset := by
  decide

/-- The analysis commands, CODE 0x2 to 0x5. -/
theorem test_decode_analysis :
    decodeTableWord 32 0b00000000000000000000000000000010 = some .fft ∧
    decodeTableWord 32 0b00000000000000000000000000000011 = some .peaks ∧
    decodeTableWord 32 0b00000000000000000000000000000100 = some .classify ∧
    decodeTableWord 32 0b00000000000000000000000000000101 = some .decode := by
  decide

/-- WIN_CLEAR, CODE 0x1, and WIN_PUSH, a write of offset 0x028 with the data above it. -/
theorem test_decode_window :
    decodeTableWord 32 0b00000000000000000000000000000001 = some .winClear ∧
    decodeTableWord 16 0b0000000000101000 = some (.winPush 0) ∧
    decodeTableWord 48 0b00000000000000001000000000000001_0000000000101000 = some (.winPush 0x00008001) := by
  decide

/-- SYN_START, CODE 0x6, SYN_STOP, CODE 0x7, and SYN_READ, a read of offset 0x040. -/
theorem test_decode_synth :
    decodeTableWord 32 0b00000000000000000000000000000110 = some .synStart ∧
    decodeTableWord 32 0b00000000000000000000000000000111 = some .synStop ∧
    decodeTableWord 16 0b0000000001000000 = some .synRead := by
  decide

/-- STATUS_W1C, a write of offset 0x00C. -/
theorem test_decode_status :
    decodeTableWord 16 0b0000000000001100 = some (.statusW1c 0) ∧
    decodeTableWord 48 0b00000000000000000000000011110010_0000000000001100 = some (.statusW1c 0x000000F2) := by
  decide

/-- V-E-1 to V-E-4: the words of CMD that are no commands, at the ends of the two ranges. -/
theorem test_decode_illegal :
    decode (cmdWrite 0x00000009) = .rejected .reservedCode ∧ decode (cmdWrite 0x0000000F) = .rejected .reservedCode ∧
    decode (cmdWrite 0x00000010) = .rejected .reservedBits ∧ decode (cmdWrite 0x80000005) = .rejected .reservedBits ∧
    decode (cmdWrite 0xFFFFFFFF) = .rejected .reservedBits := by
  decide

/-! ## The sine ROM and the product (V-ROM, V-TW, V-CM) -/

theorem test_sineRom :
    [0, 512, 1024, 2048, 3072, 1, 1023, 4095, 4096, 2049, 3073].map sine =
      [0, 23170, 32768, 0, -32768, 50, 32768, -50, 0, -50, -32768] := by
  decide

theorem test_twiddle :
    twiddle 1 8 = ⟨23170, -23170⟩ ∧ twiddle 3 8 = ⟨-23170, -23170⟩ ∧ twiddle 1 4096 = ⟨32768, -50⟩ ∧
    twiddle 1 16 = ⟨30274, -12540⟩ := by
  decide

theorem test_cmul :
    cmul ⟨23170, -23170⟩ ⟨1000, 0⟩ = ⟨707, -707⟩ ∧ cmul ⟨23170, -23170⟩ ⟨-1, 0⟩ = ⟨-1, 1⟩ ∧
    cmul ⟨16384, 0⟩ ⟨1, 0⟩ = ⟨1, 0⟩ ∧ cmul ⟨16384, 0⟩ ⟨-1, 0⟩ = ⟨0, 0⟩ := by
  decide

/-! ## One step of each instruction -/

/-- V-K-1. -/
theorem test_nop : (wr 0x008 0x0 busyFft).statusWord = 0x00000201 ∧ (wr 0x008 0x0 busyFft).eng = .busy .fft := by decide

/-- V-W-5. -/
theorem test_winClear : (wr 0x008 0x1 { short with winCount := 5 }).winCount = 0 := by decide

/-- V-W-1, V-W-2: the view sign-extends, and reads 0 beyond WIN_COUNT. -/
theorem test_winPush :
    ((wr 0x028 0x00008000 pushed).regValue (.winView 2)) = 0xFFFF8000 ∧ pushed.regValue (.winView 1) = 1000 ∧
    pushed.regValue (.winView 2) = 0 := by
  decide

/-- V-W-3, V-W-4. -/
theorem test_winPush_full :
    (wr 0x028 5 { short with winCount := 8 }).errOvf = true ∧ (wr 0x028 5 { busyFft with winCount := 8 }).errOvf = false ∧
    (wr 0x028 5 { busyFft with winCount := 8 }).errBusy = true := by
  decide

/-- V-F-1. -/
theorem test_fft :
    (List.range 8).map (fun k => ((transformed.specRe k).toInt, (transformed.specIm k).toInt)) =
      [(1000, 0), (707, -707), (0, -1000), (-707, -707), (-1000, 0), (-707, 707), (0, 1000), (707, 707)] := by
  decide

/-- V-F-1: the window is not consumed; the command is done. -/
theorem test_fft_status : transformed.winCount = 2 ∧ transformed.statusWord = 0x00000202 := by decide

/-- V-P-1: equal magnitudes come out in descending bin order. -/
theorem test_peaks : extracted.peakCnt = 3 ∧ extracted.peaks = peaked.peaks := by decide

/-- V-P-2: an all-zero spectrum gives the bins in descending order. -/
theorem test_peaks_zero :
    (done (wr 0x008 0x3 (done (wr 0x008 0x2 short)))).peaks.toList.map PeakSlot.bin = [3, 2, 1, 0, 0, 0, 0, 0] := by
  decide

/-- V-C-1. -/
theorem test_classify :
    (done (wr 0x008 0x4 peaked)).resultWord = 0x00012520 ∧
    (done (wr 0x008 0x4 peaked)).matchFreq.toList = [0x003E8000, 0, 0x007D0000, 0, 0, 0x00BB8000, 0, 0] := by
  decide

/-- V-C-2 (a difference equal to TOL is no match), V-C-7 (equal differences: the low tone), V-C-9 (the lower frequency). -/
theorem test_classify_bounds :
    (done (wr 0x008 0x4 (wr 0x100 0x0041A000 peaked))).resultWord = 0x00012420 ∧
    (done (wr 0x008 0x4 (wr 0x100 0x003DE000 (wr 0x104 0x003F2000 peaked)))).resultWord = 0x00012520 ∧
    (done (wr 0x008 0x4 (wr 0x01C 0x00258000 (wr 0x100 0x005DC000 (wr 0x104 0x02710000 peaked))))).resultWord =
      0x00017F28 := by
  decide

/-- V-W-11. -/
theorem test_decode :
    (done (wr 0x008 0x5 pushed)).resultWord = 0x00012520 ∧ (done (wr 0x008 0x5 pushed)).winCount = 0 ∧
    (done (wr 0x008 0x5 pushed)).statusWord = 0x00000202 := by
  decide

/-- V-W-12: the window is dropped. -/
theorem test_decode_drop :
    (done (wr 0x008 0x5 (wr 0x020 3 pushed))).resultWord = 0x00020000 ∧
    (done (wr 0x008 0x5 (wr 0x020 3 pushed))).winCount = 0 := by
  decide

/-- Program P1: the status after SYN_START. -/
theorem test_synStart : playing.statusWord = 0x00000100 ∧ playing.synPos = 0 := by decide

/-- Program P4: the status after SYN_START and SYN_STOP with an empty message. -/
theorem test_synStop : (wr 0x008 0x7 (wr 0x008 0x6 State.reset)).statusWord = 0x00000200 := by decide

/-- V-S-5, program P1: the samples n = 1 and n = 2. -/
theorem test_synRead :
    (rd 0x040 (rd 0x040 playing)).response = .data 0x00005AFC ∧
    (rd 0x040 (rd 0x040 (rd 0x040 playing))).response = .data 0xFFFFEF8C := by
  decide

/-- V-S-12 and V-S-13: an empty message, and an inactive synthesizer. -/
theorem test_synRead_silent :
    (rd 0x040 (wr 0x008 0x6 State.reset)).response = .data 0 ∧ (rd 0x040 (wr 0x008 0x6 State.reset)).synPos = 1 ∧
    (rd 0x040 State.reset).synPos = 0 := by
  decide

/-- V-K-9. -/
theorem test_softReset :
    wr 0x008 0x8 { busyFft with synActive := true, done := true, winCount := 5 } = { State.reset with response := .ok } := by
  decide

/-- V-K-2, V-K-3. -/
theorem test_statusW1c :
    (wr 0x00C 0x00000022
      { State.reset with done := true, errIllegal := true, errBusy := true, errOvf := true, errBus := true }).statusWord =
        0x000002D0 ∧
    (wr 0x00C 0xFFFFFFFF
      { State.reset with done := true, errIllegal := true, errBusy := true, errOvf := true, errBus := true }).statusWord =
        0x00000200 := by
  decide

/-! ## Plain accesses and errors -/

/-- V-K-6, V-W-6, V-W-7. -/
theorem test_store_cfg :
    (wr 0x014 0x00000F00 State.reset).cfgWord = 0x00000803 ∧
    (wr 0x014 0x00000803 { State.reset with winCount := 100 }).winCount = 0 ∧
    (wr 0x014 0x0000040C { State.reset with winCount := 100 }).cfgWord = 0x0000040C ∧
    (wr 0x014 0x0000040C { State.reset with winCount := 100 }).winCount = 100 := by
  decide

/-- V-K-7. -/
theorem test_store_legalised :
    (wr 0x018 0 State.reset).fs = 1 ∧ (wr 0x030 0 State.reset).symLen = 1 ∧ (wr 0x034 0x1FF State.reset).synLen = 256 ∧
    (wr 0x038 0xFFFFFFFF State.reset).ampl = 0x8000 := by
  decide

/-- V-K-8, V-K-10, V-K-11. -/
theorem test_load :
    (rd 0x1000 (wr 0x1000 0x12345678 State.reset)).response = .data 0x00000078 ∧
    (rd 0x000 (wr 0x000 0 State.reset)).response = .data 0x41544331 ∧ (rd 0x028 State.reset).response = .data 0 := by
  decide

/-- V-K-4, V-K-5. -/
theorem test_irq :
    (wr 0x010 0xFFFFFFFF { State.reset with done := true }).irq = true ∧
    (wr 0x010 0xFFFFFFFF { State.reset with done := true }).irqEn = 0x000000F2 ∧
    (wr 0x00C 0x00000002 (wr 0x010 0xFFFFFFFF { State.reset with done := true })).irq = false := by
  decide

/-- V-E-4 to V-E-8. -/
theorem test_errors :
    (wr 0x008 0x00000015 busyFft).errIllegal = true ∧ (wr 0x008 0x00000015 busyFft).errBusy = false ∧
    (wr 0x008 0x3 busyFft).errBusy = true ∧ (wr 0x018 9000 busyFft).fs = 8000 ∧ (wr 0x038 0x4000 playing).ampl = 0x8000 ∧
    (wr 0x01C 0 playing).tol = 0 := by
  decide

/-- V-E-9: the error response. -/
theorem test_busError : (rd 0x002 State.reset).response = .error ∧ (rd 0x002 State.reset).errBus = true := by decide

/-- V-E-13, V-E-14: an output of the BUSY command answers a free value; the other registers answer as they stand. -/
theorem test_load_any :
    (rd 0x050 { short with eng := .busy .classify }).response = .data (Config.anyWord 0) ∧
    (rd 0x054 { short with eng := .busy .classify }).response = .data 0 :=
  ⟨rfl, rfl⟩

/-! ## Witnesses: the premises of the statements can be met -/

theorem short_legal : LegalRegs short := by constructor <;> decide

theorem playing_legal : LegalRegs playing := by constructor <;> decide

theorem peaked_legal : LegalRegs peaked := by constructor <;> decide

/-- The state with the given move next. -/
def next (e : Input) (s : State) : State := { s with inputs := [e] }

theorem witness_StepRunsDecodedInstruction :
    (next (.host (.read 0x040 4)) short).inputs = .host (.read 0x040 4) :: [] ∧ decode (.read 0x040 4) = .instr .synRead ∧
    accessOfTableWord 32 5 = some (cmdWrite 5) ∧ decodeTableWord 16 0x028 = some (.winPush 0) := by
  decide

theorem witness_EngineStepCompletesCommand :
    (next .engine busyFft).inputs = .engine :: [] ∧ busyFft.inputs = [] ∧ busyFft.eng = .busy .fft ∧ short.eng = .idle := by
  decide

theorem witness_StepKeepsRegistersLegal : LegalRegs short ∧ step short = .next short := ⟨short_legal, rfl⟩

theorem witness_StepKeepsMemoryLegal : LegalRegs playing ∧ LegalMem playing ∧ step playing = .next playing :=
  ⟨playing_legal, ⟨rfl, fun c hc => by
    rw [show playing.mem = [(0x1000, 0x41)] from rfl, List.mem_singleton] at hc
    subst hc
    exact .inl ⟨by decide, by decide, rfl⟩⟩, rfl⟩

theorem witness_StepKeepsPhaseLaw : playing.synActive = true ∧ PhaseLaw playing ∧ step playing = .next playing :=
  ⟨rfl, fun _ => by decide, rfl⟩

theorem witness_StepKeepsPeaksOrdered : LegalRegs peaked ∧ PeaksOrdered peaked ∧ step peaked = .next peaked :=
  ⟨peaked_legal, ⟨by decide, by decide⟩, rfl⟩

/-- Every flag is 1 and the next access is a STATUS write that clears none of them. -/
def flagged : State :=
  next (.host (.write 0x00C 4 0))
    { short with done := true, errIllegal := true, errBusy := true, errOvf := true, errBus := true }

theorem witness_StickyFlagsClearedOnlyByHost :
    (∃ t, step flagged = .next t) ∧ ¬ IsReset (moveOf flagged) ∧
    flagged.done = true ∧ flagged.errIllegal = true ∧ flagged.errBusy = true ∧ flagged.errOvf = true ∧ flagged.errBus = true ∧
    ∀ b, ¬ ClearsBit b (moveOf flagged) := by
  refine ⟨⟨_, rfl⟩, ?_, rfl, rfl, rfl, rfl, rfl, ?_⟩
  · unfold IsReset; decide
  · rintro b ⟨v, h, hv⟩
    have : (0 : Word) = v := by injection h with h; injection h
    subst this
    simp at hv

theorem witness_AtMostOneErrorPerAccess :
    Rises .illegal short (wr 0x008 9 short) ∧ Rises .busy busyFft (wr 0x008 3 busyFft) ∧
    Rises .ovf { short with winCount := 8 } (wr 0x028 5 { short with winCount := 8 }) ∧ Rises .bus short (rd 0x002 short) ∧
    hostAccess (cmdWrite 9) short = .next (wr 0x008 9 short) :=
  ⟨⟨rfl, rfl⟩, ⟨rfl, rfl⟩, ⟨rfl, rfl⟩, ⟨rfl, rfl⟩, rfl⟩

theorem witness_SynActiveChangesOnlyByCommand :
    (∃ t, step (next (.host (cmdWrite 6)) short) = .next t ∧ short.synActive = false ∧ t.synActive = true) ∧
    (∃ t, step (next (.host (cmdWrite 7)) playing) = .next t ∧ playing.synActive = true ∧ t.synActive = false) :=
  ⟨⟨_, rfl, rfl, rfl⟩, ⟨_, rfl, rfl, rfl⟩⟩

theorem witness_ResultsWrittenOnlyByCompletions :
    (∃ t, step busyFft = .next t) ∧ ¬ IsReset (moveOf busyFft) ∧ ¬ Completes .decode busyFft (moveOf busyFft) ∧
    ¬ Completes .classify busyFft (moveOf busyFft) ∧ ¬ Completes .peaks busyFft (moveOf busyFft) := by
  refine ⟨⟨_, rfl⟩, ?_⟩
  unfold IsReset Completes
  decide

theorem witness_WinCountWrittenOnlyByItsWriters :
    ∃ t, step (next (.host (.write 0x028 4 5)) short) = .next t ∧ t.winCount ≠ short.winCount :=
  ⟨_, rfl, by decide⟩

theorem witness_RamWrittenOnlyByItsWriters :
    let s := { short with mem := [(0x1000, 0x41)] }
    ∃ t, step (next (.host (.write 0x1000 4 0x42)) s) = .next t ∧ t.ramByte 0x1000 ≠ s.ramByte 0x1000 :=
  ⟨_, rfl, by decide⟩

theorem witness_BusyCommandOutputsAreFixed :
    ∃ t, busyFft.eng = .busy .fft ∧ hostAccess (cmdWrite 6) busyFft = .next t ∧ t.eng ≠ .idle :=
  ⟨_, rfl, rfl, by decide⟩

theorem witness_BadBusAccessSetsOnlyErrBus :
    (Access.read 0x050 2).size ≠ 4 ∧ (Access.write 0x02A 4 0).off.toNat % 4 ≠ 0 ∧
    (Access.read 0x02C 4).off.unmapped = true ∧ (Access.read 0x3FFC 4).off.unmapped = true := by
  decide

theorem witness_IllegalCommandSetsOnlyErrIllegal : (8 : Word).toNat < 9 ∧ 9 ≤ (9 : Word).toNat := by decide

theorem witness_BusyEngineRefusesCommands : busyFft.eng = .busy .fft ∧ ∃ v, Instr.winPush 0 = .winPush v := ⟨rfl, 0, rfl⟩

theorem witness_InterlockedStoresAreRefused :
    Interlocked busyFft .cfg ∧ Interlocked busyFft (.toneHi 7) ∧ Interlocked playing .ampl ∧ Interlocked playing (.msg 255) := by
  have hb : busyFft.eng ≠ .idle := by decide
  exact ⟨.inl ⟨hb, .inl rfl⟩, .inl ⟨hb, .inr (.inr (.inr (.inr (.inr ⟨7, rfl⟩))))⟩, .inr ⟨rfl, by simp⟩, .inr ⟨rfl, by simp⟩⟩

theorem witness_LoadAnswersRegisterOrAny :
    Reg.specRe 7 ≠ .synData ∧ (∃ c, busyFft.eng = .busy c ∧ OutputReg busyFft c (.specRe 7)) ∧
    ¬ (∃ c, busyFft.eng = .busy c ∧ OutputReg busyFft c (.specRe 8)) := by
  refine ⟨by decide, ⟨.fft, rfl, .inl ⟨.inl rfl, 7, by decide, .inl rfl⟩⟩, ?_⟩
  rintro ⟨c, hc, h⟩
  have hc' : c = .fft := by injection hc with hc; exact hc.symm
  subst hc'
  rcases h with ⟨_, k, hk, h | h⟩ | ⟨h | h, _⟩ | ⟨h | h, _⟩ | ⟨h, _⟩
  · injection h with h
    subst h
    revert hk
    decide
  all_goals cases h

/-- No interlock in an idle core; and in a BUSY or a playing one, none for the inputs of the other unit. -/
theorem not_interlocked :
    ¬ Interlocked short .fs ∧ ¬ Interlocked short .cfg ∧ ¬ Interlocked short (.msg 255) ∧ ¬ Interlocked busyFft (.msg 255) ∧
    ¬ Interlocked busyFft .ampl ∧ ¬ Interlocked busyFft .irqEn ∧ ¬ Interlocked playing .cfg ∧ ¬ Interlocked playing .tol ∧
    ¬ Interlocked playing .minSamples := by
  have hs : short.eng = .idle ∧ short.synActive = false ∧ busyFft.synActive = false ∧ playing.eng = .idle := by decide
  unfold Interlocked
  simp [hs]

theorem witness_StoreThenLoadReturnsLegalised :
    legalised 0 .fs = some 1 ∧ ¬ Interlocked short .fs ∧ legalised 0xFFF .cfg = some 0x80C ∧ ¬ Interlocked short .cfg ∧
    legalised 0 .cfg = some 0x103 ∧ ¬ Interlocked playing .cfg ∧ legalised 0x180 (.msg 255) = some 0x80 ∧
    ¬ Interlocked busyFft (.msg 255) :=
  ⟨by decide, not_interlocked.1, by decide, not_interlocked.2.1, by decide, not_interlocked.2.2.2.2.2.2.1, by decide,
    not_interlocked.2.2.2.1⟩

theorem witness_StoreChangesOnlyItsRegister :
    (legalised 0 (.msg 255)).isSome = true ∧ ¬ Interlocked short (.msg 255) ∧ (legalised 0 .tol).isSome = true ∧
    ¬ Interlocked playing .tol :=
  ⟨by decide, not_interlocked.2.2.1, by decide, not_interlocked.2.2.2.2.2.2.2.1⟩

theorem witness_CfgWriteEmptiesWindowOnNewLength :
    short.eng = .idle ∧ LegalRegs short ∧ (wr 0x014 0x80C short).log2n ≠ short.log2n ∧
    (wr 0x014 0x803 short).log2n = short.log2n :=
  ⟨rfl, short_legal, by decide, by decide⟩

theorem witness_ReadOnlyAndWriteOnlyAccesses : readOnly .id = true ∧ readOnly (.specIm 4095) = true ∧ Reg.cmd = .cmd := by
  decide

/-- Every right side of IrqEnWriteTakesEffectAtOnce can hold and can fail: the enable bit, the pending flag, the flag cleared
(V-K-4, V-K-5). -/
theorem witness_IrqEnWriteTakesEffectAtOnce :
    (wr 0x010 0x00000002 flagged).irq = true ∧ (wr 0x010 0x00000080 flagged).irq = true ∧
    (wr 0x010 0xFFFFFF0D flagged).irq = false ∧ (wr 0x010 0xFFFFFFFF short).irq = false ∧
    (wr 0x00C 0x00000002 { short with done := true, irqEn := 0xF2 }).irq = false ∧
    (wr 0x00C 0x00000002 { flagged with irqEn := 0xF2 }).irq = true := by
  decide

theorem witness_InstructionsKeepConfiguration : ∃ t, exec .synStart short = .next t ∧ Instr.synStart ≠ .softReset :=
  ⟨_, rfl, by decide⟩

theorem witness_AnalysisCommandAccepted :
    (Instr.fft = .fft ∧ Analysis.fft = .fft) ∧ (Instr.peaks = .peaks ∧ Analysis.peaks = .peaks) ∧
    (Instr.classify = .classify ∧ Analysis.classify = .classify) ∧ (Instr.decode = .decode ∧ Analysis.decode = .decode) ∧
    short.eng = .idle := by
  decide

theorem witness_WinClearEmptiesWindow : short.eng = .idle := rfl

theorem witness_WinPushAppendsSample :
    short.eng = .idle ∧ short.winCount.toNat < 2 ^ short.log2n.toNat ∧ short.log2n.toNat ≤ 12 := by
  decide

theorem witness_WinPushIntoFullWindowOverflows :
    short.eng = .idle ∧ ({ short with winCount := 8 } : State).winCount.toNat = 2 ^ short.log2n.toNat := by
  decide

theorem witness_FftCommandPublishesSpectrum : LegalRegs short ∧ short.eng = .idle := ⟨short_legal, rfl⟩

theorem witness_DcAndNyquistBinsAreExact : LegalRegs short := short_legal

theorem witness_IterativeTransformAgrees : [(⟨1, 0⟩ : Cplx), ⟨2, 0⟩, ⟨3, 0⟩, ⟨4, 0⟩].length = 2 ^ 2 := rfl

theorem witness_PeaksCommandPublishesSlots : LegalRegs transformed ∧ transformed.eng = .idle :=
  ⟨by constructor <;> decide, rfl⟩

/-- With PEAK_K = 2 the bin 1 of V-P-1 is in no slot. -/
theorem witness_PeakSlotsAreTheStrongest :
    let s := { transformed with peakK := 2 }
    LegalRegs s ∧ 1 ≤ 1 ∧ 1 ≤ 2 ^ s.log2n.toNat / 2 - 1 ∧
    ∀ j : Fin 8, j.val < (completePeaks s).peakCnt.toNat → ((completePeaks s).peaks.get j).bin.toNat ≠ 1 :=
  ⟨by constructor <;> decide, by decide, by decide, by decide⟩

theorem witness_BinFrequencyIsExact : LegalRegs short ∧ 3 ≤ 2 ^ short.log2n.toNat / 2 - 1 := ⟨short_legal, by decide⟩

theorem witness_ClassifyCommandPublishesResult : peaked.eng = .idle ∧ Detected peaked 0x003E8000 :=
  ⟨rfl, 2, by decide, rfl⟩

theorem witness_ClassifierPicksNearestTone :
    (completeClassify peaked).resMatched.getLsbD (0 : Fin 8).val = true ∧ Detected peaked 0x003E8000 :=
  ⟨by decide, 2, by decide, rfl⟩

theorem witness_DecodeDropsShortWindow :
    ({ short with winCount := 1 } : State).eng = .idle ∧
    ({ short with winCount := 1 } : State).winCount.toNat < ({ short with winCount := 1 } : State).minSamples.toNat := by
  decide

theorem witness_DecodeEqualsTheThreeCommands : pushed.eng = .idle ∧ pushed.minSamples.toNat ≤ pushed.winCount.toNat := by
  decide

/-- The window 0, 1000 and the same window with one sample of silence pushed. -/
theorem witness_DecodeIsMemoryless :
    let s := pushed
    let s' := wr 0x028 0 pushed
    s'.winCount ≠ s.winCount ∧ LegalRegs s ∧ s.minSamples.toNat ≤ s.winCount.toNat ∧ s'.minSamples.toNat ≤ s'.winCount.toNat ∧
    s'.log2n = s.log2n ∧ s'.peakK = s.peakK ∧ s'.fs = s.fs ∧ s'.tol = s.tol ∧ s'.toneLo = s.toneLo ∧ s'.toneHi = s.toneHi ∧
    ∀ i, i < 2 ^ s.log2n.toNat → s'.xw i = s.xw i :=
  ⟨by decide, by constructor <;> decide, by decide, by decide, rfl, rfl, rfl, rfl, rfl, rfl, by decide⟩

theorem witness_SynStartRestartsSynthesis : 1 ≤ short.symLen.toNat := by decide

theorem witness_SynReadReturnsNextSample : playing.synActive = true ∧ playing.synLen ≠ 0 ∧ playing.ampl.toNat ≤ 0x8000 := by
  decide

theorem witness_SynReadInactiveReturnsZero : short.synActive = false := rfl

theorem witness_EmptyMessageIsSilence :
    (wr 0x008 6 short).synActive = true ∧ (wr 0x008 6 short).synLen = 0 := by
  decide

theorem witness_SynthSampleNeverWraps : (-262144 : Int) ≤ 262144 ∧ (262144 : Int) ≤ 262144 ∧ 0x8000 ≤ 0x8000 := by decide

theorem witness_SynthesisPastEndRepeatsLastByte :
    let s := { playing with synPos := 8 }
    LegalRegs s ∧ s.synLen ≠ 0 ∧ s.symLen.toNat * s.synLen.toNat ≤ s.synPos.toNat :=
  ⟨by constructor <;> decide, by decide, by decide⟩

end Sys2Proof.Tests
end

section
/-!
PROOFS. What a host access is, read back from its decoding (20 R81; 30 R112, R117).
-/

namespace Sys2Proof

/-! ## The address map -/

/-- A control register found at an offset lies there (20 R81). -/
theorem offset_of_controlRegAt {n : Nat} {r : Reg} (h : controlRegAt n = some r) : r.offset = BitVec.ofNat 16 n := by
  unfold controlRegAt at h
  split at h <;> cases h <;> rfl

/-- A word of a peak slot found at a distance into the peak table lies there (20 R81). -/
theorem offset_peakRegAt {d : Nat} (hd : d < 0x80) (hal : d % 4 = 0) :
    (peakRegAt d).offset = BitVec.ofNat 16 (0x200 + d) := by
  unfold peakRegAt
  split_ifs <;> simp only [Reg.offset, Fin.ofNat] <;> congr 1 <;> omega

/-- The register an aligned offset names lies at that offset (20 R81). -/
theorem offset_of_regAt {off : Offset} {r : Reg} (hal : off.toNat % 4 = 0) (h : regAt off = some r) : r.offset = off := by
  have hoff := off.isLt
  apply BitVec.eq_of_toNat_eq
  simp only [regAt, ite_eq_iff, Option.some.injEq, reduceCtorEq, and_false, false_or] at h
  rcases h with ⟨_, hcontrol⟩ | ⟨_, ⟨_, ⟨_, rfl⟩ | ⟨_, rfl⟩⟩ | ⟨_, _, ⟨_, hpeak⟩ | ⟨_, _, ⟨_, rfl⟩ | ⟨_, _, ⟨_, rfl⟩ |
    ⟨_, _, ⟨_, rfl⟩ | ⟨_, ⟨_, rfl⟩ | ⟨_, rfl⟩⟩⟩⟩⟩⟩⟩
  · rw [offset_of_controlRegAt hcontrol, BitVec.ofNat_toNat, BitVec.setWidth_eq]
  case inr.inr.inl => rw [← hpeak, offset_peakRegAt (by omega) (by omega), BitVec.toNat_ofNat]; omega
  all_goals simp only [Reg.offset, BitVec.toNat_ofNat, Fin.ofNat]; omega

/-! ## Commands (30 R112, R113) -/

/-- The command of a CODE is the CMD write of that CODE (30 R112). -/
theorem encode_of_commandOfCode {n : Nat} {i : Instr} (h : commandOfCode n = some i) :
    encode i = .write 0x008#16 4 (BitVec.ofNat 32 n) := by
  unfold commandOfCode at h
  split at h <;> cases h <;> rfl

/-- A CMD value that decodes to a command is that command's own (30 R113, R115). -/
theorem encode_of_decodeCommand {v : Word} {i : Instr} (h : decodeCommand v = .instr i) :
    encode i = .write 0x008#16 4 v := by
  unfold decodeCommand at h
  split_ifs at h with hres
  have hhigh : v.toNat / 16 % 2 ^ 28 = 0 := by
    simpa [BitVec.extractLsb'_toNat, Nat.shiftRight_eq_div_pow] using congrArg BitVec.toNat (not_not.1 hres)
  split at h <;> cases h
  rename_i hcode
  rw [encode_of_commandOfCode hcode]
  congr 1
  apply BitVec.eq_of_toNat_eq
  have hv := v.isLt
  simp only [BitVec.extractLsb'_toNat, BitVec.toNat_ofNat]
  omega

/-- A CMD write is never a plain store (30 R113). -/
theorem decodeCommand_ne_store (v w : Word) (r : Reg) : decodeCommand v ≠ .store r w := by
  unfold decodeCommand
  split_ifs
  · simp
  · split <;> simp

/-! ## Accesses -/

/-- A read that is an instruction is a read of SYN_DATA (30 R117). -/
theorem eq_synRead_of_decodeRead {q : Reg} {i : Instr} (h : decodeRead q = .instr i) : q = .synData ∧ i = .synRead := by
  cases q <;> cases h
  exact ⟨rfl, rfl⟩

/-- A write that is an instruction is that instruction's own access (30 R112, R117). -/
theorem encode_of_decodeWrite {q : Reg} {v : Word} {i : Instr} (h : decodeWrite v q = .instr i) :
    encode i = .write q.offset 4 v := by
  cases q
  case cmd => exact encode_of_decodeCommand h
  all_goals cases h <;> rfl

/-- A write that is a plain store stores its word to its register (45 R236). -/
theorem eq_of_decodeWrite_store {q r : Reg} {v w : Word} (h : decodeWrite v q = .store r w) : q = r ∧ v = w := by
  cases q
  case cmd => exact absurd h (decodeCommand_ne_store v w r)
  all_goals cases h <;> exact ⟨rfl, rfl⟩

/-- Which accesses are instructions: each instruction's own one (30 R112, R117). -/
theorem eq_encode_of_decode {a : Access} {i : Instr} (h : decode a = .instr i) : a = encode i := by
  rcases decode_cases a with ⟨why, -, hd⟩ | ⟨-, hal, q, hq, ⟨ha, hd⟩ | ⟨v, ha, hd⟩⟩ <;> rw [hd] at h
  · cases h
  · obtain ⟨rfl, rfl⟩ := eq_synRead_of_decodeRead h
    rw [ha, ← offset_of_regAt hal hq]
    rfl
  · rw [ha, encode_of_decodeWrite h, offset_of_regAt hal hq]

/-- Which accesses are plain stores: the 32-bit writes of the register they name (30 R117). -/
theorem eq_write_of_decode_store {a : Access} {r : Reg} {v : Word} (h : decode a = .store r v) :
    a = .write r.offset 4 v := by
  rcases decode_cases a with ⟨why, -, hd⟩ | ⟨-, hal, q, hq, ⟨-, hd⟩ | ⟨w, ha, hd⟩⟩ <;> rw [hd] at h
  · cases h
  · cases q <;> cases h
  · obtain ⟨rfl, rfl⟩ := eq_of_decodeWrite_store h
    rw [ha, offset_of_regAt hal hq]

end Sys2Proof
end

section
/-!
PROOFS. What one step can write, said once: the effect of its move on what the core holds.
-/

namespace Sys2Proof.Machine

open Sys2Proof.Safety

/-! ## The contents of a state -/

/-- The state without the engine's and the bus's bookkeeping: the registers, the synthesizer, the outputs and the RAMs stay; ENG,
the sticky flags and what is the model's own (logs 1, 3, 4) are set to fixed values. -/
def State.contents (s : State) : State :=
  { s with
    eng := .idle, done := false, errIllegal := false, errBusy := false, errOvf := false, errBus := false
    inputs := [], response := .none, draws := 0 }

theorem contents_setErr (s : State) (f : ErrFlag) : (s.setErr f).contents = s.contents := by
  cases f <;> rfl

/-- What a completion writes does not depend on the pending inputs (20 R101). -/
theorem completionOf_inputs (c : Analysis) (s : State) (l : List Input) :
    completionOf c { s with inputs := l } = { completionOf c s with inputs := l } := by
  cases c with
  | decode =>
    simp only [completionOf, completeDecode]
    by_cases h : s.winCount.toNat < s.minSamples.toNat
    · rw [if_pos h, if_pos h]; rfl
    · rw [if_neg h, if_neg h]; rfl
  | _ => rfl

section Frames

variable {s t : State} (h : t.contents = s.contents)
include h

theorem sameConfig_of_contents : SameConfig s t where
  irqEn := (congrArg State.irqEn h :)
  log2n := (congrArg State.log2n h :)
  peakK := (congrArg State.peakK h :)
  fs := (congrArg State.fs h :)
  tol := (congrArg State.tol h :)
  minSamples := (congrArg State.minSamples h :)
  symLen := (congrArg State.symLen h :)
  synLen := (congrArg State.synLen h :)
  ampl := (congrArg State.ampl h :)
  toneLo := (congrArg State.toneLo h :)
  toneHi := (congrArg State.toneHi h :)

theorem samePeaks_of_contents : SamePeaks s t := ⟨(congrArg State.peakCnt h :), (congrArg State.peaks h :)⟩

theorem sameResult_of_contents : SameResult s t where
  byte := (congrArg State.resByte h :)
  matched := (congrArg State.resMatched h :)
  valid := (congrArg State.resValid h :)
  dropped := (congrArg State.resDropped h :)
  matchFreq := (congrArg State.matchFreq h :)

theorem sameSynth_of_contents : SameSynth s t where
  active := (congrArg State.synActive h :)
  pos := (congrArg State.synPos h :)
  accLo := (congrArg State.accLo h :)
  accHi := (congrArg State.accHi h :)

theorem winCount_of_contents : t.winCount = s.winCount := (congrArg State.winCount h :)

theorem mem_of_contents : t.mem = s.mem := (congrArg State.mem h :)

end Frames

/-! ## The effect of a move -/

/-- What a move can write: `Effect s e u` says that after the move e from s the contents are those of u. -/
inductive Effect (s : State) : Input → State → Prop
  /-- Nothing: loads, refusals, rejected accesses, NOP, STATUS_W1C, accepted analysis commands, idle turns. -/
  | keep (e : Input) : Effect s e s
  /-- The state change of the BUSY command (20 R101). -/
  | complete (c : Analysis) (busy : s.eng = .busy c) : Effect s .engine (completionOf c s)
  /-- Reset, by the reset input or by SOFT_RESET (70 R280, 45 R231). -/
  | reset {e : Input} (isReset : IsReset e) : Effect s e s.resetCore
  /-- WIN_CLEAR with ENG IDLE (44 R213). -/
  | winClear (idle : s.eng = .idle) : Effect s (.host (encode .winClear)) { s with winCount := 0 }
  /-- A push with ENG IDLE and room in the window (44 R212). -/
  | winPush (v : Word) (idle : s.eng = .idle) (room : s.winCount.toNat < s.windowLength) :
      Effect s (.host (encode (.winPush v)))
        { s.setWin s.winCount.toNat (v.extractLsb' 0 16) with winCount := s.winCount + 1 }
  /-- SYN_START (43 R185). -/
  | synStart : Effect s (.host (encode .synStart))
      { s with synPos := 0, accLo := Vector.replicate 8 0, accHi := Vector.replicate 8 0, synActive := true }
  /-- SYN_STOP (43 R187). -/
  | synStop : Effect s (.host (encode .synStop)) { s with synActive := false }
  /-- SYN_READ while the synthesizer runs (43 R195). -/
  | synRead (active : s.synActive = true) : Effect s (.host (encode .synRead)) s.advanceSynth
  /-- A plain store that no interlock refuses (45 R236). -/
  | store (r : Reg) (v : Word) (accepted : s.storeRefused r = false) :
      Effect s (.host (.write r.offset 4 v)) (s.writeReg v r)

/-- The effect of a move does not depend on the pending inputs (log 1). -/
theorem Effect.of_inputs {s u : State} {l : List Input} {e : Input} (h : Effect { s with inputs := l } e u) :
    ∃ u', Effect s e u' ∧ u.contents = u'.contents := by
  cases h with
  | keep => exact ⟨_, .keep e, rfl⟩
  | complete c busy => exact ⟨_, .complete c busy, by rw [completionOf_inputs]; rfl⟩
  | reset isReset => exact ⟨_, .reset isReset, rfl⟩
  | winClear idle => exact ⟨_, .winClear idle, rfl⟩
  | winPush v idle room => exact ⟨_, .winPush v idle room, rfl⟩
  | synStart => exact ⟨_, .synStart, rfl⟩
  | synStop => exact ⟨_, .synStop, rfl⟩
  | synRead active => exact ⟨_, .synRead active, rfl⟩
  | store r v accepted => exact ⟨_, .store r v accepted, by cases r <;> rfl⟩

/-- The effect of an instruction. -/
theorem exec_effect {i : Instr} {s t : State} (h : exec i s = .next t) :
    ∃ u, Effect s (.host (encode i)) u ∧ t.contents = u.contents := by
  rcases exec_cases h with ⟨f, rfl⟩ | ⟨rfl, rfl⟩ | ⟨rfl, idle, rfl⟩ | ⟨c, -, rfl⟩ | ⟨rfl, rfl⟩ | ⟨rfl, rfl⟩ | ⟨rfl, rfl⟩ |
    ⟨v, rfl, idle, room, rfl⟩ | ⟨rfl, active, r, rfl⟩ | ⟨rfl, -, r, rfl⟩ | ⟨v, rfl, rfl⟩
  · exact ⟨_, .keep _, contents_setErr s f⟩
  · exact ⟨_, .keep _, rfl⟩
  · exact ⟨_, .winClear idle, rfl⟩
  · exact ⟨_, .keep _, rfl⟩
  · exact ⟨_, .synStart, rfl⟩
  · exact ⟨_, .synStop, rfl⟩
  · exact ⟨_, .reset (.inr rfl), rfl⟩
  · exact ⟨_, .winPush v idle room, rfl⟩
  · exact ⟨_, .synRead active, rfl⟩
  · exact ⟨_, .keep _, rfl⟩
  · exact ⟨_, .keep _, rfl⟩

/-- Every step leaves the contents that one effect of its move gives. -/
theorem step_effect {s t : State} (h : step s = .next t) : ∃ u, Effect s (moveOf s) u ∧ t.contents = u.contents := by
  obtain ⟨s', rfl, hcases⟩ := step_cases h
  suffices he : ∃ u, Effect { s with inputs := s.inputs.tail } (moveOf s) u ∧ t.contents = u.contents by
    obtain ⟨u, hu, htu⟩ := he
    obtain ⟨u', hu', huu'⟩ := hu.of_inputs
    exact ⟨u', hu', htu.trans huu'⟩
  rcases hcases with ⟨hm, -, rfl⟩ | ⟨hm, c, busy, rfl⟩ | ⟨hm, rfl⟩ | ⟨a, i, hm, hd, he⟩ | ⟨a, r, hm, -, rfl | ⟨w, rfl⟩⟩ |
    ⟨a, r, v, hm, -, -, rfl⟩ | ⟨a, r, v, hm, hd, accepted, rfl⟩ | ⟨a, why, hm, -, rfl | rfl⟩ <;> rw [hm]
  · exact ⟨_, .keep _, rfl⟩
  · exact ⟨_, .complete c busy, rfl⟩
  · exact ⟨_, .reset (.inl rfl), rfl⟩
  · rw [eq_encode_of_decode hd]
    exact exec_effect he
  · exact ⟨_, .keep _, rfl⟩
  · exact ⟨_, .keep _, rfl⟩
  · exact ⟨_, .keep _, rfl⟩
  · rw [eq_write_of_decode_store hd]
    exact ⟨_, .store r v accepted, rfl⟩
  · exact ⟨_, .keep _, rfl⟩
  · exact ⟨_, .keep _, rfl⟩

/-- An invariant of the contents that every effect keeps is kept by every step. -/
theorem step_preserves {P : State → Prop} (hcontents : ∀ s t : State, t.contents = s.contents → P s → P t)
    (heffect : ∀ s e u, Effect s e u → P s → P u) {s t : State} (hs : P s) (h : step s = .next t) : P t := by
  obtain ⟨u, hu, htu⟩ := step_effect h
  exact hcontents u t htu (heffect s _ u hu hs)

end Sys2Proof.Machine
end

section
/-!
PROOFS. What each completion writes, output by output (20 R99, R101).
-/

namespace Sys2Proof.Machine

open Sys2Proof.Safety

/-! ## Registers -/

/-- Of the completions only DECODE's writes WIN_COUNT, and it empties the window (44 R219). -/
theorem completionOf_winCount (c : Analysis) (s : State) :
    (completionOf c s).winCount = if c = .decode then 0 else s.winCount := by
  cases c <;> rfl

/-- The completions of FFT and PEAKS leave RESULT and MATCH_FREQ alone (20 R99). -/
theorem completionOf_sameResult {c : Analysis} (s : State) (hc : c ≠ .classify) (hd : c ≠ .decode) :
    SameResult s (completionOf c s) := by
  cases c with
  | fft => exact ⟨rfl, rfl, rfl, rfl, rfl⟩
  | peaks => exact ⟨rfl, rfl, rfl, rfl, rfl⟩
  | classify => exact absurd rfl hc
  | decode => exact absurd rfl hd

/-- The completions of FFT and CLASSIFY leave the peak registers alone (20 R99). -/
theorem completionOf_samePeaks {c : Analysis} (s : State) (hc : c ≠ .peaks) (hd : c ≠ .decode) :
    SamePeaks s (completionOf c s) := by
  cases c with
  | fft => exact ⟨rfl, rfl⟩
  | peaks => exact absurd rfl hc
  | classify => exact ⟨rfl, rfl⟩
  | decode => exact absurd rfl hd

/-- PEAK_CNT after a completion: as before, or `min(K, N/2 - 1)` (41 R155). -/
theorem completionOf_peakCnt (c : Analysis) (s : State) :
    (completionOf c s).peakCnt = s.peakCnt ∨ (completionOf c s).peakCnt = BitVec.ofNat 4 s.slotCount := by
  cases c with
  | fft => exact .inl rfl
  | peaks => exact .inr rfl
  | classify => exact .inl rfl
  | decode =>
    rcases completeDecode_cases s with ⟨-, e⟩ | ⟨-, e⟩ <;> rw [completionOf, e]
    · exact .inl rfl
    · exact .inr rfl

/-- Memory after a completion: as before, or with the spectrum written by FFT or DECODE (20 R99). -/
theorem completionOf_mem (c : Analysis) (s : State) :
    (completionOf c s).mem = s.mem ∨ ((c = .fft ∨ c = .decode) ∧ (completionOf c s).mem = (completeFft s).mem) := by
  cases c with
  | fft => exact .inr ⟨.inl rfl, rfl⟩
  | peaks => exact .inl rfl
  | classify => exact .inl rfl
  | decode =>
    rcases completeDecode_cases s with ⟨-, e⟩ | ⟨-, e⟩ <;> rw [completionOf, e]
    · exact .inl rfl
    · exact .inr ⟨.inr rfl, rfl⟩

/-! ## The bytes that FFT writes -/

/-- SPEC[0..N-1] as bytes (40 R131). -/
def State.spectrumBytes (s : State) : List Byte :=
  (s.spectrum.map fun z => (BitVec.ofInt 32 z.re, BitVec.ofInt 32 z.im)).flatMap fun z =>
    bytesOfWord z.1 ++ bytesOfWord z.2

theorem length_spectrumBytes (s : State) : s.spectrumBytes.length = 8 * s.windowLength := by
  rw [State.spectrumBytes, length_flatMap_eight _ fun _ => rfl, List.length_map, length_spectrum]

theorem completeFft_eq (s : State) : completeFft s = s.storeBytes 0x8000 s.spectrumBytes := rfl

end Sys2Proof.Machine
end

section
/-!
PROOFS. The statements about the legal states: the reset state is legal and every step keeps the registers, the memory and the
phase law legal (10 R26 to R47, R50).
-/

namespace Sys2Proof.Machine

open Sys2Proof.Safety

/-! ## Registers -/

theorem legalLog2n_bounds (v : Word) : 3 ≤ (legalLog2n v).toNat ∧ (legalLog2n v).toNat ≤ 12 := by
  simp only [legalLog2n, clampNat, BitVec.toNat_ofNat]
  omega

theorem legalPeakK_bounds (v : Word) : 1 ≤ (legalPeakK v).toNat ∧ (legalPeakK v).toNat ≤ 8 := by
  simp only [legalPeakK, clampNat, BitVec.toNat_ofNat]
  omega

theorem one_le_legalFs (v : Word) : 1 ≤ (legalFs v).toNat := by
  have := (v.extractLsb' 0 18).isLt
  simp only [legalFs, BitVec.toNat_ofNat]
  omega

theorem one_le_legalSymLen (v : Word) : 1 ≤ (legalSymLen v).toNat := by
  have := (v.extractLsb' 0 24).isLt
  simp only [legalSymLen, BitVec.toNat_ofNat]
  omega

theorem legalSynLen_le (v : Word) : (legalSynLen v).toNat ≤ 256 := by
  simp only [legalSynLen, BitVec.toNat_ofNat]
  omega

theorem legalAmpl_le (v : Word) : (legalAmpl v).toNat ≤ 0x8000 := by
  simp only [legalAmpl, BitVec.toNat_ofNat]
  omega

/-- Legality depends on the configuration, WIN_COUNT and PEAK_CNT only. -/
theorem legalRegs_of_sameConfig {s t : State} (hs : LegalRegs s) (h : SameConfig s t)
    (hwin : t.winCount.toNat ≤ s.windowLength) (hpeak : t.peakCnt.toNat ≤ 8) : LegalRegs t where
  log2n_lo := h.log2n ▸ hs.log2n_lo
  log2n_hi := h.log2n ▸ hs.log2n_hi
  peakK_lo := h.peakK ▸ hs.peakK_lo
  peakK_hi := h.peakK ▸ hs.peakK_hi
  fs_lo := h.fs ▸ hs.fs_lo
  symLen_lo := h.symLen ▸ hs.symLen_lo
  synLen_hi := h.synLen ▸ hs.synLen_hi
  ampl_hi := h.ampl ▸ hs.ampl_hi
  irqEn_mask := by rw [h.irqEn, hs.irqEn_mask]
  winCount_hi := by rwa [State.windowLength, h.log2n]
  peakCnt_hi := hpeak

theorem resetCore_legalRegs (s : State) : LegalRegs s.resetCore := by
  constructor <;> simp [State.resetCore, State.windowLength]

/-- PEAK_K bounds the number of slots that PEAKS fills (41 R155). -/
theorem slotCount_le {s : State} (hs : LegalRegs s) : s.slotCount ≤ 8 :=
  (Nat.min_le_left ..).trans hs.peakK_hi

theorem completionOf_legalRegs (c : Analysis) {s : State} (hs : LegalRegs s) : LegalRegs (completionOf c s) := by
  obtain ⟨-, -, hconfig, -, -⟩ := completionOf_frame c s
  refine legalRegs_of_sameConfig hs hconfig ?_ ?_
  · rw [completionOf_winCount]
    split
    · exact Nat.zero_le _
    · exact hs.winCount_hi
  · rcases completionOf_peakCnt c s with e | e <;> rw [e]
    · exact hs.peakCnt_hi
    · have := slotCount_le hs
      rw [BitVec.toNat_ofNat]
      omega

/-- The legalisation of 45 R236 keeps every register legal; a CFG write that changes N empties the window (44 R214). -/
theorem writeReg_legalRegs {s : State} (r : Reg) (v : Word) (hs : LegalRegs s) : LegalRegs (s.writeReg v r) := by
  cases r with
  | irqEn => exact { hs with irqEn_mask := by simp [State.writeReg, irqEnMask, BitVec.and_assoc] }
  | cfg =>
    obtain ⟨hlog_lo, hlog_hi⟩ := legalLog2n_bounds v
    obtain ⟨hpeak_lo, hpeak_hi⟩ := legalPeakK_bounds v
    refine { hs with
      log2n_lo := hlog_lo, log2n_hi := hlog_hi, peakK_lo := hpeak_lo, peakK_hi := hpeak_hi, winCount_hi := ?_ }
    simp only [State.writeReg, State.writeCfg_winCount, State.windowLength, State.writeCfg_log2n]
    split
    case isTrue h => rw [h]; exact hs.winCount_hi
    case isFalse => exact Nat.zero_le _
  | fs => exact { hs with fs_lo := one_le_legalFs v }
  | symLen => exact { hs with symLen_lo := one_le_legalSymLen v }
  | synLen => exact { hs with synLen_hi := legalSynLen_le v }
  | ampl => exact { hs with ampl_hi := legalAmpl_le v }
  | _ => exact { hs with }

theorem Effect.legalRegs {s u : State} {e : Input} (h : Effect s e u) (hs : LegalRegs s) : LegalRegs u := by
  cases h with
  | keep => exact hs
  | complete c => exact completionOf_legalRegs c hs
  | reset => exact resetCore_legalRegs s
  | winClear => exact { hs with winCount_hi := Nat.zero_le _ }
  | winPush v idle room =>
    refine { hs with winCount_hi := ?_ }
    obtain ⟨-, hN⟩ := windowLength_bounds hs
    have hadd : (s.winCount + 1).toNat = s.winCount.toNat + 1 := by
      bv_omega
    exact hadd.trans_le room
  | synStart => exact { hs with }
  | synStop => exact { hs with }
  | synRead => exact { hs with }
  | store r v => exact writeReg_legalRegs r v hs

/-- Settles O9, effect by effect. -/
theorem stepKeepsRegistersLegal : Obligations.StepKeepsRegistersLegal := by
  unfold Obligations.StepKeepsRegistersLegal
  intro s t hs h
  refine step_preserves (fun s t h hs => ?_) (fun _ _ _ he hs => he.legalRegs hs) hs h
  refine legalRegs_of_sameConfig hs (sameConfig_of_contents h) ?_ ?_
  · rw [winCount_of_contents h]
    exact hs.winCount_hi
  · rw [(samePeaks_of_contents h).cnt]
    exact hs.peakCnt_hi

/-! ## Memory -/

/-- A store of RAM bytes keeps memory legal (10 R44 to R46). -/
theorem legalMem_of_store {s u : State} {a : Nat} {bs : List Byte} (hs : LegalMem s) (hmem : u.mem = s.mem.store a bs)
    (hram : ∀ x, a ≤ x → x < a + bs.length → RamOffset x) : LegalMem u where
  wf := by rw [hmem]; exact Memory.wf_store a bs hs.wf
  ram := by
    intro c hc
    rw [hmem] at hc
    rcases Memory.mem_store hc with ⟨hlo, hhi⟩ | hc
    · exact hram _ hlo hhi
    · exact hs.ram c hc

theorem legalMem_of_mem_eq {s u : State} (hs : LegalMem s) (hmem : u.mem = s.mem) : LegalMem u :=
  ⟨hmem ▸ hs.wf, hmem ▸ hs.ram⟩

/-- The spectrum of at most 4096 bins stays within SPEC (10 R46). -/
theorem completeFft_legalMem {s u : State} (hr : LegalRegs s) (hs : LegalMem s) (hmem : u.mem = (completeFft s).mem) :
    LegalMem u := by
  obtain ⟨-, hN⟩ := windowLength_bounds hr
  refine legalMem_of_store hs (a := 0x8000) (bs := s.spectrumBytes) hmem fun x hlo hhi => .inr (.inr ⟨hlo, ?_⟩)
  rw [length_spectrumBytes] at hhi
  omega

theorem Effect.legalMem {s u : State} {e : Input} (h : Effect s e u) (hr : LegalRegs s) (hs : LegalMem s) : LegalMem u := by
  cases h with
  | complete c =>
    rcases completionOf_mem c s with hmem | ⟨-, hmem⟩
    · exact legalMem_of_mem_eq hs hmem
    · exact completeFft_legalMem hr hs hmem
  | winPush v idle room =>
    obtain ⟨-, hN⟩ := windowLength_bounds hr
    refine legalMem_of_store hs (a := winAddr s.winCount.toNat) (bs := bytesOfSample _) rfl fun x hlo hhi => .inr (.inl ?_)
    simp only [winAddr, bytesOfSample, List.length_cons, List.length_nil] at hlo hhi
    omega
  | store r v =>
    rcases writeReg_mem s v r with hmem | ⟨i, rfl, hmem⟩
    · exact legalMem_of_mem_eq hs hmem
    · refine legalMem_of_store hs (a := msgAddr i.val) (bs := [v.extractLsb' 0 8]) hmem fun x hlo hhi => .inl ?_
      simp only [msgAddr, List.length_cons, List.length_nil] at hlo hhi
      omega
  | _ => exact legalMem_of_mem_eq hs rfl

/-- Settles O10: the three writers of memory write bytes of their own RAM. -/
theorem stepKeepsMemoryLegal : Obligations.StepKeepsMemoryLegal := by
  unfold Obligations.StepKeepsMemoryLegal
  intro s t hr hs h
  obtain ⟨u, hu, htu⟩ := step_effect h
  exact legalMem_of_mem_eq (hu.legalMem hr hs) (mem_of_contents htu)

/-! ## The phase law -/

/-- The tuning words depend on FS and the tone registers only (43 R190). -/
theorem ftw_congr {s t : State} (hfs : t.fs = s.fs) (hlo : t.toneLo = s.toneLo) (hhi : t.toneHi = s.toneHi)
    (i : Fin 8) (v : Bool) : t.ftw i v = s.ftw i v := by
  simp only [State.ftw, State.tone, hfs, hlo, hhi]

theorem acc_congr {s t : State} (h : SameSynth s t) (i : Fin 8) (v : Bool) : t.acc i v = s.acc i v := by
  simp only [State.acc, h.accLo, h.accHi]

theorem acc_advanceSynth (s : State) (i : Fin 8) (v : Bool) : s.advanceSynth.acc i v = s.acc i v + s.ftw i v := by
  cases v <;> simp [State.acc]

/-- The phase law carries over when the synthesizer's state and, while it runs, the tuning words stay. -/
theorem phaseLaw_of_sameSynth {s t : State} (hs : PhaseLaw s) (h : SameSynth s t)
    (hftw : s.synActive = true → ∀ i v, t.ftw i v = s.ftw i v) : PhaseLaw t := by
  intro hact i v
  have hact' : s.synActive = true := h.active ▸ hact
  rw [acc_congr h, h.pos, hftw hact', hs hact' i v]

/-- The phase law carries over when the synthesizer's state and the configuration stay. -/
theorem phaseLaw_of_sameConfig {s t : State} (hs : PhaseLaw s) (h : SameSynth s t) (hc : SameConfig s t) : PhaseLaw t :=
  phaseLaw_of_sameSynth hs h fun _ => ftw_congr hc.fs hc.toneLo hc.toneHi

/-- While the synthesizer runs, the interlocks refuse the stores that tuning words depend on (60 R252). -/
theorem ftw_writeReg {s : State} {r : Reg} (v : Word) (hact : s.synActive = true) (hacc : s.storeRefused r = false)
    (i : Fin 8) (b : Bool) : (s.writeReg v r).ftw i b = s.ftw i b := by
  have hlock : lockedBySynth r = false := by
    simp only [State.storeRefused, hact, Bool.true_and, Bool.or_eq_false_iff] at hacc
    exact hacc.2
  cases r with
  | fs => cases hlock
  | toneLo => cases hlock
  | toneHi => cases hlock
  | _ => rfl

/-- A sample advances every accumulator by its tuning word and SYN_POS by 1 (43 R195). -/
theorem advanceSynth_phaseLaw {s : State} (hs : PhaseLaw s) : PhaseLaw s.advanceSynth := by
  intro hact i v
  have hftw : s.advanceSynth.ftw i v = s.ftw i v := ftw_congr rfl rfl rfl i v
  calc s.advanceSynth.acc i v = s.synPos * s.ftw i v + s.ftw i v := by rw [acc_advanceSynth, hs hact i v]
    _ = (s.synPos + 1) * s.ftw i v := by ring
    _ = s.advanceSynth.synPos * s.advanceSynth.ftw i v := by rw [hftw, State.advanceSynth_synPos]

theorem Effect.phaseLaw {s u : State} {e : Input} (h : Effect s e u) (hs : PhaseLaw s) : PhaseLaw u := by
  cases h with
  | keep => exact hs
  | complete c =>
    obtain ⟨-, -, hconfig, hsynth, -⟩ := completionOf_frame c s
    exact phaseLaw_of_sameConfig hs hsynth hconfig
  | reset => exact fun hact => nomatch hact
  | winClear => exact hs
  | winPush => exact hs
  | synStart =>
    intro _ i v
    cases v <;> simp [State.acc]
  | synStop => exact fun hact => nomatch hact
  | synRead => exact advanceSynth_phaseLaw hs
  | store r v accepted =>
    obtain ⟨-, -, -, -, hsynth, -⟩ := writeReg_frame s v r
    exact phaseLaw_of_sameSynth hs hsynth fun hact => ftw_writeReg v hact accepted

/-- Settles O11: only SYN_READ moves a running synthesizer, and no tuning word changes while it runs. -/
theorem stepKeepsPhaseLaw : Obligations.StepKeepsPhaseLaw := by
  unfold Obligations.StepKeepsPhaseLaw
  intro s t hs h
  exact step_preserves (fun _ _ h hs => phaseLaw_of_sameConfig hs (sameSynth_of_contents h) (sameConfig_of_contents h))
    (fun _ _ _ he hs => he.phaseLaw hs) hs h

/-! ## The reset state -/

theorem reset_peaksOrdered : PeaksOrdered State.reset where
  empty := fun j _ => replicate8_get _ j
  ordered := fun _ _ _ hk => absurd hk (Nat.not_lt_zero _)

/-- Settles O8: the reset state is a state after reset, and its peak slots are empty. -/
theorem resetStateIsLegal : Obligations.ResetStateIsLegal := by
  unfold Obligations.ResetStateIsLegal
  refine ⟨resetCore_legalRegs State.reset, ⟨reset_mem_wf, ?_⟩, ?_, reset_peaksOrdered⟩
  · exact fun c hc => nomatch hc
  · exact fun hact => nomatch hact

end Sys2Proof.Machine
end

section
/-!
PROOFS. The statements about who writes what: the outputs, WIN_COUNT and the RAMs.
-/

namespace Sys2Proof.Machine

open Sys2Proof.Safety

/-! ## The outputs (10 R38, R39, R42, R43) -/

theorem sameResult_trans {s u t : State} (h : SameResult s u) (h' : SameResult u t) : SameResult s t where
  byte := h'.byte.trans h.byte
  matched := h'.matched.trans h.matched
  valid := h'.valid.trans h.valid
  dropped := h'.dropped.trans h.dropped
  matchFreq := h'.matchFreq.trans h.matchFreq

theorem samePeaks_trans {s u t : State} (h : SamePeaks s u) (h' : SamePeaks u t) : SamePeaks s t :=
  ⟨h'.cnt.trans h.cnt, h'.slots.trans h.slots⟩

/-- An effect on RESULT or MATCH_FREQ is a reset or a completion of CLASSIFY or DECODE. -/
theorem Effect.sameResult {s u : State} {e : Input} (h : Effect s e u) (hreset : ¬ IsReset e)
    (hdecode : ¬ Completes .decode s e) (hclassify : ¬ Completes .classify s e) : SameResult s u := by
  cases h with
  | complete c busy =>
    refine completionOf_sameResult s ?_ ?_
    · rintro rfl; exact hclassify ⟨rfl, busy⟩
    · rintro rfl; exact hdecode ⟨rfl, busy⟩
  | reset isReset => exact absurd isReset hreset
  | store r v =>
    obtain ⟨-, -, -, hresult, -, -⟩ := writeReg_frame s v r
    exact hresult
  | _ => exact ⟨rfl, rfl, rfl, rfl, rfl⟩

/-- An effect on the peak registers is a reset or a completion of PEAKS or DECODE. -/
theorem Effect.samePeaks {s u : State} {e : Input} (h : Effect s e u) (hreset : ¬ IsReset e)
    (hdecode : ¬ Completes .decode s e) (hpeaks : ¬ Completes .peaks s e) : SamePeaks s u := by
  cases h with
  | complete c busy =>
    refine completionOf_samePeaks s ?_ ?_
    · rintro rfl; exact hpeaks ⟨rfl, busy⟩
    · rintro rfl; exact hdecode ⟨rfl, busy⟩
  | reset isReset => exact absurd isReset hreset
  | store r v =>
    obtain ⟨-, -, hpeaks, -, -, -⟩ := writeReg_frame s v r
    exact hpeaks
  | _ => exact ⟨rfl, rfl⟩

/-- Settles O16: no other effect than those of the completions and of reset reaches the outputs. -/
theorem resultsWrittenOnlyByCompletions : Obligations.ResultsWrittenOnlyByCompletions := by
  unfold Obligations.ResultsWrittenOnlyByCompletions
  intro s t h hreset hdecode
  obtain ⟨u, hu, htu⟩ := step_effect h
  exact ⟨fun hclassify => sameResult_trans (hu.sameResult hreset hdecode hclassify) (sameResult_of_contents htu),
    fun hpeaks => samePeaks_trans (hu.samePeaks hreset hdecode hpeaks) (samePeaks_of_contents htu)⟩

/-! ## WIN_COUNT (10 R31) -/

/-- A store that changes WIN_COUNT is a CFG write with a new LOG2N (44 R214). -/
theorem eq_cfg_of_writeReg_winCount {s : State} {v : Word} {r : Reg} (h : (s.writeReg v r).winCount ≠ s.winCount) :
    r = .cfg ∧ (s.writeReg v r).log2n ≠ s.log2n := by
  cases r with
  | cfg => exact ⟨rfl, fun hlog => h (if_pos hlog)⟩
  | _ => exact absurd rfl h

theorem Effect.winCount_writers {s u : State} {e : Input} (h : Effect s e u) (hne : u.winCount ≠ s.winCount) :
    (∃ v : Word, e = .host (.write 0x028#16 4 v)) ∨
    e = .host (cmdWrite 0x00000001#32) ∨
    ((∃ v : Word, e = .host (.write 0x014#16 4 v)) ∧ u.log2n ≠ s.log2n) ∨
    Completes .decode s e ∨ IsReset e := by
  cases h with
  | keep => exact absurd rfl hne
  | complete c busy =>
    rw [completionOf_winCount, ite_ne_right_iff] at hne
    exact .inr (.inr (.inr (.inl ⟨rfl, hne.1 ▸ busy⟩)))
  | reset isReset => exact .inr (.inr (.inr (.inr isReset)))
  | winClear => exact .inr (.inl rfl)
  | winPush v => exact .inl ⟨v, rfl⟩
  | synStart => exact absurd rfl hne
  | synStop => exact absurd rfl hne
  | synRead => exact absurd rfl hne
  | store r v =>
    obtain ⟨rfl, hlog⟩ := eq_cfg_of_writeReg_winCount hne
    exact .inr (.inr (.inl ⟨⟨v, rfl⟩, hlog⟩))

/-- Settles O17, effect by effect. -/
theorem winCountWrittenOnlyByItsWriters : Obligations.WinCountWrittenOnlyByItsWriters := by
  unfold Obligations.WinCountWrittenOnlyByItsWriters
  intro s t h hne
  obtain ⟨u, hu, htu⟩ := step_effect h
  rw [winCount_of_contents htu] at hne
  rw [(sameConfig_of_contents htu).log2n]
  exact hu.winCount_writers hne

/-! ## The RAMs (10 R44 to R46) -/

/-- A byte that a store of bytes changes is one of those it covers. -/
theorem mem_range_of_ramByte_ne {s u : State} {a x : Nat} {bs : List Byte} (hmem : u.mem = s.mem.store a bs)
    (hne : u.ramByte x ≠ s.ramByte x) : a ≤ x ∧ x < a + bs.length := by
  by_contra hout
  refine hne ((ramByte_congr (s := s.storeBytes a bs) hmem x).trans (ramByte_storeBytes_out s ?_))
  omega

theorem Effect.ram_writers {s u : State} {e : Input} {a : Nat} (h : Effect s e u) (hne : u.ramByte a ≠ s.ramByte a) :
    (∃ (i : Fin 256) (v : Word), e = .host (.write (Reg.msg i).offset 4 v) ∧ s.synActive = false ∧
      a = 0x1000 + 4 * i.val) ∨
    (∃ v : Word, e = .host (.write 0x028#16 4 v) ∧ s.eng = .idle ∧
      (a = 0x4000 + 4 * s.winCount.toNat ∨ a = 0x4001 + 4 * s.winCount.toNat)) ∨
    ((Completes .fft s e ∨ Completes .decode s e) ∧ 0x8000 ≤ a ∧ a < 0x8000 + 8 * s.windowLength) := by
  cases h with
  | complete c busy =>
    rcases completionOf_mem c s with hmem | ⟨hc, hmem⟩
    · exact absurd (ramByte_congr hmem a) hne
    · refine .inr (.inr ⟨?_, ?_⟩)
      · rcases hc with rfl | rfl
        · exact .inl ⟨rfl, busy⟩
        · exact .inr ⟨rfl, busy⟩
      · rw [← length_spectrumBytes]
        exact mem_range_of_ramByte_ne hmem hne
  | winPush v idle =>
    obtain ⟨hlo, hhi⟩ := mem_range_of_ramByte_ne (a := winAddr s.winCount.toNat) (bs := bytesOfSample _) rfl hne
    refine .inr (.inl ⟨v, rfl, idle, ?_⟩)
    simp only [winAddr, bytesOfSample, List.length_cons, List.length_nil] at hlo hhi
    omega
  | store r v accepted =>
    rcases writeReg_mem s v r with hmem | ⟨i, rfl, hmem⟩
    · exact absurd (ramByte_congr hmem a) hne
    · obtain ⟨hlo, hhi⟩ := mem_range_of_ramByte_ne (a := msgAddr i.val) (bs := [v.extractLsb' 0 8]) hmem hne
      refine .inl ⟨i, v, rfl, ?_, ?_⟩
      · simpa [State.storeRefused, lockedBySynth, lockedByEngine] using accepted
      · simp only [msgAddr, List.length_cons, List.length_nil] at hlo hhi
        omega
  | _ => exact absurd rfl hne

/-- Settles O18: the three writers of memory, with the bytes each covers; no other effect, reset included, changes memory. -/
theorem ramWrittenOnlyByItsWriters : Obligations.RamWrittenOnlyByItsWriters := by
  unfold Obligations.RamWrittenOnlyByItsWriters
  intro s t a h hne
  obtain ⟨u, hu, htu⟩ := step_effect h
  rw [ramByte_congr (mem_of_contents htu)] at hne
  exact hu.ram_writers hne

end Sys2Proof.Machine
end

section
/-!
PROOFS. What an instruction and a step can do to the sticky flags, said once, and the statement about them (10 R25, 60 R258).
-/

namespace Sys2Proof.Machine

open Sys2Proof.Safety

/-- Every sticky flag that is 1 in s is 1 in t. -/
structure KeepsFlags (s t : State) : Prop where
  done : s.done = true → t.done = true
  illegal : s.errIllegal = true → t.errIllegal = true
  busy : s.errBusy = true → t.errBusy = true
  ovf : s.errOvf = true → t.errOvf = true
  bus : s.errBus = true → t.errBus = true

/-- DONE that is kept or set and unchanged error flags keep every flag. -/
theorem keepsFlags_of_sameErrors {s t : State} (hdone : s.done = true → t.done = true) (h : SameErrors s t) :
    KeepsFlags s t :=
  ⟨hdone, h.illegal.trans, h.busy.trans, h.ovf.trans, h.bus.trans⟩

theorem keepsFlags_setErr (s : State) (f : ErrFlag) (r : Response) : KeepsFlags s ((s.setErr f).respond r) := by
  constructor <;> intro h <;> simp [h]

/-- What an instruction can do to the sticky flags: keep them, clear all (SOFT_RESET), or clear those written with 1. -/
theorem exec_flags {i : Instr} {s t : State} (h : exec i s = .next t) :
    KeepsFlags s t ∨ i = .softReset ∨ ∃ v, i = .statusW1c v ∧ t = (s.clearFlags v).respond .ok := by
  rcases exec_cases h with ⟨f, rfl⟩ | ⟨rfl, rfl⟩ | ⟨rfl, -, rfl⟩ | ⟨c, -, rfl⟩ | ⟨rfl, rfl⟩ | ⟨rfl, rfl⟩ | ⟨rfl, rfl⟩ |
    ⟨v, rfl, -, -, rfl⟩ | ⟨rfl, -, r, rfl⟩ | ⟨rfl, -, r, rfl⟩ | ⟨v, rfl, rfl⟩
  · exact .inl (keepsFlags_setErr s f _)
  · exact .inl (⟨id, id, id, id, id⟩)
  · exact .inl (⟨id, id, id, id, id⟩)
  · exact .inl (⟨id, id, id, id, id⟩)
  · exact .inl (⟨id, id, id, id, id⟩)
  · exact .inl (⟨id, id, id, id, id⟩)
  · exact .inr (.inl rfl)
  · exact .inl (⟨id, id, id, id, id⟩)
  · exact .inl (⟨id, id, id, id, id⟩)
  · exact .inl (⟨id, id, id, id, id⟩)
  · exact .inr (.inr ⟨v, rfl, rfl⟩)

/-- A completion sets DONE and keeps the error flags (20 R101). -/
theorem keepsFlags_complete (s : State) (c : Analysis) : KeepsFlags s (s.complete c) := by
  obtain ⟨-, herrors, -, -, -⟩ := completionOf_frame c s
  exact keepsFlags_of_sameErrors (fun _ => rfl) ⟨herrors.illegal, herrors.busy, herrors.ovf, herrors.bus⟩

/-- A store keeps the flags (45 R236). -/
theorem keepsFlags_writeReg (s : State) (v : Word) (r : Reg) : KeepsFlags s ((s.writeReg v r).respond .ok) := by
  obtain ⟨hengine, herrors, -, -, -, -⟩ := writeReg_frame s v r
  exact keepsFlags_of_sameErrors hengine.done.trans ⟨herrors.illegal, herrors.busy, herrors.ovf, herrors.bus⟩

theorem keepsFlags_of_inputs {s t : State} {l : List Input} (h : KeepsFlags { s with inputs := l } t) : KeepsFlags s t :=
  ⟨h.done, h.illegal, h.busy, h.ovf, h.bus⟩

/-- What a step can do to the sticky flags: keep them, reset them, or clear those that a STATUS write has 1 for. -/
theorem step_flags {s t : State} (h : step s = .next t) :
    KeepsFlags s t ∨ IsReset (moveOf s) ∨
    ∃ v, moveOf s = .host (encode (.statusW1c v)) ∧ KeepsFlags (s.clearFlags v) t := by
  obtain ⟨s', rfl, hcases⟩ := step_cases h
  rcases hcases with ⟨-, -, rfl⟩ | ⟨-, c, -, rfl⟩ | ⟨hm, -⟩ | ⟨a, i, hm, hd, he⟩ | ⟨a, r, -, -, rfl | ⟨w, rfl⟩⟩ |
    ⟨a, r, v, -, -, -, rfl⟩ | ⟨a, r, v, -, -, -, rfl⟩ | ⟨a, why, -, -, rfl | rfl⟩
  · exact .inl ⟨id, id, id, id, id⟩
  · exact .inl (keepsFlags_of_inputs (keepsFlags_complete _ c))
  · exact .inr (.inl (.inl hm))
  · rw [hm, eq_encode_of_decode hd]
    rcases exec_flags he with hkeep | rfl | ⟨v, rfl, rfl⟩
    · exact .inl (keepsFlags_of_inputs hkeep)
    · exact .inr (.inl (.inr rfl))
    · exact .inr (.inr ⟨v, rfl, id, id, id, id, id⟩)
  · exact .inl ⟨id, id, id, id, id⟩
  · exact .inl ⟨id, id, id, id, id⟩
  · exact .inl (keepsFlags_of_inputs (keepsFlags_setErr _ _ _))
  · exact .inl (keepsFlags_of_inputs (keepsFlags_writeReg _ v r))
  · exact .inl (keepsFlags_of_inputs (keepsFlags_setErr _ _ _))
  · exact .inl (keepsFlags_of_inputs (keepsFlags_setErr _ _ _))

/-- A flag stays 1 under a STATUS write that has 0 in its bit (45 R233). -/
theorem flag_of_not_clearsBit {flag : Bool} {b : Nat} {v : Word} (hs : flag = true)
    (hb : ¬ ClearsBit b (.host (encode (.statusW1c v)))) : (flag && !v.getLsbD b) = true := by
  have hbit : v.getLsbD b = false := Bool.eq_false_iff.2 fun h => hb ⟨v, rfl, h⟩
  rw [hs, hbit]
  rfl

/-- Settles O13: a STATUS write clears only the flags whose bits it has 1 for, and every other move but reset keeps all. -/
theorem stickyFlagsClearedOnlyByHost : Obligations.StickyFlagsClearedOnlyByHost := by
  unfold Obligations.StickyFlagsClearedOnlyByHost
  intro s t h hreset
  rcases step_flags h with hkeep | hr | ⟨v, hm, hkeep⟩
  · exact ⟨fun hs _ => hkeep.done hs, fun hs _ => hkeep.illegal hs, fun hs _ => hkeep.busy hs, fun hs _ => hkeep.ovf hs,
      fun hs _ => hkeep.bus hs⟩
  · exact absurd hr hreset
  · rw [hm]
    exact ⟨fun hs hb => hkeep.done (flag_of_not_clearsBit hs hb), fun hs hb => hkeep.illegal (flag_of_not_clearsBit hs hb),
      fun hs hb => hkeep.busy (flag_of_not_clearsBit hs hb), fun hs hb => hkeep.ovf (flag_of_not_clearsBit hs hb),
      fun hs hb => hkeep.bus (flag_of_not_clearsBit hs hb)⟩

end Sys2Proof.Machine
end

section
/-!
PROOFS. The symmetries of the sine ROM (10 R41).
-/

namespace Sys2Proof.Machine

/-! ## S(p) by quarter waves -/

theorem sine_add_4096 (p : Nat) : sine (p + 4096) = sine p := by
  simp only [sine, show (p + 4096) % 4096 = p % 4096 by omega, show (p + 4096) % 1024 = p % 1024 by omega]

/-- The rising quarter reads the table upwards. -/
theorem sine_rising {r : Nat} (h : r ≤ 1024) : sine r = sineQuarter r := by
  rcases h.lt_or_eq with h | rfl
  · simp only [sine, show r % 4096 / 1024 = 0 by omega, show r % 1024 = r by omega, if_true]
  · decide

/-- The falling quarter reads it downwards. -/
theorem sine_falling {r : Nat} (h : r ≤ 1024) : sine (1024 + r) = sineQuarter (1024 - r) := by
  rcases h.lt_or_eq with h | rfl
  · simp only [sine, show (1024 + r) % 4096 / 1024 = 1 by omega, show (1024 + r) % 1024 = r by omega, one_ne_zero, if_true,
      if_false]
  · decide

/-- Symmetry about pi/2: both quarters read the same entries. -/
theorem sine_2048_sub {p : Nat} (h : p ≤ 2048) : sine (2048 - p) = sine p := by
  have mirror : ∀ r ≤ 1024, sine (1024 - r) = sine (1024 + r) := fun r hr => by
    rw [sine_rising (Nat.sub_le ..), sine_falling hr]
  rcases Nat.le_total p 1024 with hp | hp
  · have := mirror (1024 - p) (by omega)
    rwa [show 1024 - (1024 - p) = p by omega, show 1024 + (1024 - p) = 2048 - p by omega, eq_comm] at this
  · have := mirror (p - 1024) (by omega)
    rwa [show 1024 - (p - 1024) = 2048 - p by omega, show 1024 + (p - 1024) = p by omega] at this

/-- Half a period on, the same entries are read with the other sign. -/
theorem sine_add_2048 (p : Nat) : sine (p + 2048) = -sine p := by
  have hr : (p + 2048) % 1024 = p % 1024 := by omega
  have hq : (p + 2048) % 4096 / 1024 = (p % 4096 / 1024 + 2) % 4 := by omega
  have hlt : p % 4096 / 1024 < 4 := by omega
  simp only [sine, hr, hq]
  generalize p % 4096 / 1024 = q at hlt
  interval_cases q <;> simp

/-- Settles O44: the entries by evaluation, the symmetries from the quarter waves that S(p) reads. -/
theorem sineRomSymmetries : Obligations.SineRomSymmetries := by
  unfold Obligations.SineRomSymmetries
  refine ⟨by decide, by decide, by decide, by decide, by decide, fun p => ?_⟩
  obtain ⟨hlo, hhi⟩ := sine_range p
  exact ⟨sine_add_4096 p, sine_add_2048 p, hlo, hhi, sine_2048_sub⟩

end Sys2Proof.Machine
end

section
/-!
PROOFS. The address map is exact, and an access the bus does not accept sets ERR_BUS only (20 R80 to R83).
-/

namespace Sys2Proof

open Sys2Proof.Machine Sys2Proof.Safety

/-! ## The unmapped offsets (20 R81) -/

/-- The unmapped offsets below 0x100. -/
theorem controlRegAt_eq_none_iff {n : Nat} (hal : n % 4 = 0) (hn : n < 0x100) :
    controlRegAt n = none ↔ n = 0x02C ∨ (0x044 ≤ n ∧ n ≤ 0x04C) ∨ 0x058 ≤ n := by
  have hwords : ∀ m < 64, controlRegAt (4 * m) = none ↔
      4 * m = 0x02C ∨ (0x044 ≤ 4 * m ∧ 4 * m ≤ 0x04C) ∨ 0x058 ≤ 4 * m := by decide
  obtain ⟨m, rfl⟩ := Nat.dvd_of_mod_eq_zero hal
  exact hwords m (by omega)

/-- An aligned offset names no register exactly when the map lists it as unmapped. -/
theorem regAt_eq_none_iff {off : Offset} (hal : off.toNat % 4 = 0) : regAt off = none ↔ off.unmapped = true := by
  have hunmapped : off.unmapped = true ↔
      (0x02C ≤ off.toNat ∧ off.toNat < 0x030) ∨ (0x044 ≤ off.toNat ∧ off.toNat < 0x050) ∨
      (0x058 ≤ off.toNat ∧ off.toNat < 0x100) ∨ (0x140 ≤ off.toNat ∧ off.toNat < 0x200) ∨
      (0x280 ≤ off.toNat ∧ off.toNat < 0x300) ∨ (0x320 ≤ off.toNat ∧ off.toNat < 0x1000) ∨
      (0x1400 ≤ off.toNat ∧ off.toNat < 0x4000) := by
    simp [Offset.unmapped, or_assoc]
  rw [hunmapped]
  by_cases hcontrol : off.toNat < 0x100
  · simp only [regAt, if_pos hcontrol, controlRegAt_eq_none_iff hal hcontrol]
    omega
  · simp only [regAt, if_neg hcontrol, ite_eq_iff, reduceCtorEq, and_false, and_true, false_or, or_false]
    omega

/-- The unmapped ranges by their first and last aligned offsets. -/
theorem unmapped_iff_of_aligned {off : Offset} (hal : off.toNat % 4 = 0) : off.unmapped = true ↔
    off.toNat = 0x02C ∨ (0x044 ≤ off.toNat ∧ off.toNat ≤ 0x04C) ∨ (0x058 ≤ off.toNat ∧ off.toNat ≤ 0x0FC) ∨
    (0x140 ≤ off.toNat ∧ off.toNat ≤ 0x1FC) ∨ (0x280 ≤ off.toNat ∧ off.toNat ≤ 0x2FC) ∨
    (0x320 ≤ off.toNat ∧ off.toNat ≤ 0xFFC) ∨ (0x1400 ≤ off.toNat ∧ off.toNat ≤ 0x3FFC) := by
  simp only [Offset.unmapped, Bool.or_eq_true, Bool.and_eq_true, decide_eq_true_eq]
  omega

/-- Settles O3: the map's two directions, and the offsets that it leaves unmapped. -/
theorem addressMapIsExact : Obligations.AddressMapIsExact := by
  unfold Obligations.AddressMapIsExact
  exact ⟨regAt_offset, fun off hal => ⟨fun r hr => (offset_of_regAt hal hr).symm,
    (regAt_eq_none_iff hal).trans (unmapped_iff_of_aligned hal)⟩⟩

/-! ## Accesses the bus does not accept (20 R82, R83) -/

/-- A bus violation is rejected as one, the size before the alignment and the alignment before the map (60 R260). -/
theorem decode_of_bad_bus {a : Access} (h : a.size ≠ 4 ∨ a.off.toNat % 4 ≠ 0 ∨ a.off.unmapped = true) :
    ∃ why, (why = .wrongSize ∨ why = .misaligned ∨ why = .unmapped) ∧ decode a = .rejected why := by
  rcases decode_cases a with hrej | ⟨hsize, hal, r, hr, -⟩
  · exact hrej
  · rcases h with hbad | hbad | hbad
    · exact absurd hsize hbad
    · exact absurd hal hbad
    · rw [(regAt_eq_none_iff hal).2 hbad] at hr
      cases hr

/-- Settles O20: the access is rejected by name, and the rejection raises ERR_BUS alone. -/
theorem badBusAccessSetsOnlyErrBus : Obligations.BadBusAccessSetsOnlyErrBus := by
  unfold Obligations.BadBusAccessSetsOnlyErrBus
  intro s a h
  obtain ⟨why, hwhy, hd⟩ := decode_of_bad_bus h
  have hstep : hostAccess a s = .next s.raiseBusError := by
    rw [hostAccess, hd]
    rcases hwhy with rfl | rfl | rfl <;> rfl
  exact ⟨_, hstep, rfl, by simp, onlyRaises_setErr s .bus .error⟩

/-! ## Platform addresses (20 R80, 45 R235) -/

theorem base_mod : Config.base % 0x10000 = 0 := Nat.mul_mod_right ..

/-- An address of the window gives back its offset. -/
theorem offsetOfPlatform_platformAddress (off : Offset) : offsetOfPlatform (platformAddress off) = some off := by
  have hoff := off.isLt
  rw [offsetOfPlatform, platformAddress, if_pos (by omega), Nat.add_sub_cancel_left, BitVec.ofNat_toNat, BitVec.setWidth_eq]

/-- Settles O60: BASE is a multiple of the window's size. -/
theorem platformAddressRoundTrip : Obligations.PlatformAddressRoundTrip := by
  unfold Obligations.PlatformAddressRoundTrip
  refine ⟨base_mod, fun off => ⟨offsetOfPlatform_platformAddress off, ?_⟩⟩
  have hbase := base_mod
  have hoff := off.isLt
  rw [platformAddress]
  omega

end Sys2Proof
end

section
/-!
PROOFS. One step: an instruction's access runs it, and the ENGINE's turn completes its command (20 R93 to R101).
-/

namespace Sys2Proof.Machine

open Sys2Proof.Safety

/-- An access that decodes to an instruction runs it (20 R97). -/
theorem hostAccess_instr {a : Access} {i : Instr} (h : decode a = .instr i) (s : State) : hostAccess a s = exec i s := by
  rw [hostAccess, h]

/-- A step with a pending host access performs it first (20 R97). -/
theorem step_of_host {s : State} {a : Access} {rest : List Input} (h : s.inputs = .host a :: rest) :
    step s = hostAccess a { s with inputs := rest } := by
  rw [step, takeTurn, h]
  rfl

/-- A placed table word is the access the next step performs (log 1, log 10). -/
theorem step_withFetchWord {nbits w : Nat} {a : Access} (h : accessOfTableWord nbits w = some a) (s : State) :
    step (s.withFetchWord nbits w) = hostAccess a s := by
  have hplaced : s.withFetchWord nbits w = { s with inputs := .host a :: s.inputs } := by
    rw [State.withFetchWord, State.present, h]
  rw [hplaced, step_of_host rfl]

/-- A table word that is an instruction stands for an access that decodes to it. -/
theorem exists_access_of_decodeTableWord {nbits w : Nat} {i : Instr} (h : decodeTableWord nbits w = some i) :
    ∃ a, accessOfTableWord nbits w = some a ∧ decode a = .instr i := by
  unfold decodeTableWord at h
  split at h
  case h_1 a ha =>
    refine ⟨a, ha, ?_⟩
    cases hd : decode a <;> rw [hd] at h <;> cases h
    rfl
  case h_2 => cases h

/-- Settles O5: the pending or placed access is performed, and decoding to an instruction it runs that. -/
theorem stepRunsDecodedInstruction : Obligations.StepRunsDecodedInstruction := by
  unfold Obligations.StepRunsDecodedInstruction
  refine ⟨fun s a rest i hin hd => ?_, fun s nbits w a ha => step_withFetchWord ha s, fun s nbits w i hw => ?_⟩
  · rw [step_of_host hin, hostAccess_instr hd]
  · obtain ⟨a, ha, hd⟩ := exists_access_of_decodeTableWord hw
    rw [step_withFetchWord ha, hostAccess_instr hd]

/-- The next step is the ENGINE's turn when that is pending, or when nothing is (20 R95, log 2). -/
theorem step_of_engine {s : State} {rest : List Input} (h : s.inputs = .engine :: rest ∨ (s.inputs = [] ∧ rest = [])) :
    step s = .next { s with inputs := rest }.engineTurn := by
  rcases h with h | ⟨h, rfl⟩ <;> rw [step_eq, moveOf, h] <;> rfl

/-- Settles O7: the ENGINE's turn completes a BUSY command and is idle otherwise. -/
theorem engineStepCompletesCommand : Obligations.EngineStepCompletesCommand := by
  unfold Obligations.EngineStepCompletesCommand
  intro s rest h
  rw [step_of_engine h]
  refine ⟨fun c hbusy => ⟨_, rfl, ?_⟩, fun hidle => ?_⟩
  · have hturn : { s with inputs := rest }.engineTurn = { s with inputs := rest }.complete c := by
      simp only [State.engineTurn, hbusy]
    rw [hturn]
    exact ⟨rfl, rfl, rfl⟩
  · simp only [State.engineTurn, hidle]

end Sys2Proof.Machine
end

section
/-!
PROOFS. Plain register accesses: what an accepted store leaves alone, and the accesses that change nothing (20 R85, R87).
-/

namespace Sys2Proof.Machine

open Sys2Proof.Safety

/-! ## Accepted stores (45 R236, 60 R252) -/

/-- A write that no interlock refuses is performed and answered normally. -/
theorem hostAccess_write_accepted {s : State} {r : Reg} (v : Word) (hcmd : r ≠ .cmd) (hstatus : r ≠ .status)
    (hwin : r ≠ .winData) (hfree : ¬ Interlocked s r) :
    hostAccess (.write r.offset 4 v) s = .next ((s.writeReg v r).respond .ok) := by
  rw [hostAccess_write r v s hcmd hstatus hwin]
  rcases store_cases s r v with ⟨href, -⟩ | ⟨-, e⟩
  · exact absurd ((storeRefused_iff s r).1 href) hfree
  · rw [e]

/-- A store writes no configuration register but the one it names. -/
theorem writeReg_config (s : State) (v : Word) (r : Reg) :
    (r ≠ .irqEn → (s.writeReg v r).irqEn = s.irqEn) ∧
    (r ≠ .cfg → (s.writeReg v r).log2n = s.log2n ∧ (s.writeReg v r).peakK = s.peakK) ∧
    (r ≠ .fs → (s.writeReg v r).fs = s.fs) ∧ (r ≠ .tol → (s.writeReg v r).tol = s.tol) ∧
    (r ≠ .minSamples → (s.writeReg v r).minSamples = s.minSamples) ∧
    (r ≠ .symLen → (s.writeReg v r).symLen = s.symLen) ∧ (r ≠ .synLen → (s.writeReg v r).synLen = s.synLen) ∧
    (r ≠ .ampl → (s.writeReg v r).ampl = s.ampl) := by
  cases r <;> simp [State.writeReg]

/-- A store writes no tone register but the one it names (10 R40). -/
theorem writeReg_tones (s : State) (v : Word) (r : Reg) (i : Fin 8) :
    (r ≠ .toneLo i → (s.writeReg v r).toneLo.get i = s.toneLo.get i) ∧
    (r ≠ .toneHi i → (s.writeReg v r).toneHi.get i = s.toneHi.get i) := by
  cases r with
  | toneLo j =>
    refine ⟨fun h => ?_, fun _ => rfl⟩
    have hij : i ≠ j := fun e => h (e ▸ rfl)
    exact (set8_get s.toneLo j i v).trans (if_neg hij)
  | toneHi j =>
    refine ⟨fun _ => rfl, fun h => ?_⟩
    have hij : i ≠ j := fun e => h (e ▸ rfl)
    exact (set8_get s.toneHi j i v).trans (if_neg hij)
  | _ => exact ⟨fun _ => rfl, fun _ => rfl⟩

/-- A store writes no byte of memory but that of the MSG word it names (10 R44). -/
theorem writeReg_ramByte (s : State) (v : Word) (r : Reg) (a : Nat) (h : ∀ i, r = .msg i → a ≠ msgAddr i.val) :
    (s.writeReg v r).ramByte a = s.ramByte a := by
  rcases writeReg_mem s v r with hmem | ⟨i, rfl, hmem⟩
  · exact ramByte_congr hmem a
  · have hne := h i rfl
    refine (ramByte_congr hmem a).trans (ramByte_storeBytes_out s ?_)
    rw [List.length_singleton]
    omega

/-- Only a CFG write reaches WIN_COUNT (44 R214). -/
theorem writeReg_winCount (s : State) (v : Word) {r : Reg} (h : r ≠ .cfg) : (s.writeReg v r).winCount = s.winCount :=
  by_contra fun hne => h (eq_cfg_of_writeReg_winCount hne).1

/-- Settles O27, group by group of the registers. -/
theorem storeChangesOnlyItsRegister : Obligations.StoreChangesOnlyItsRegister := by
  unfold Obligations.StoreChangesOnlyItsRegister
  intro s r v hrw hfree
  obtain ⟨hcmd, hstatus, hwin⟩ : r ≠ .cmd ∧ r ≠ .status ∧ r ≠ .winData := by
    refine ⟨?_, ?_, ?_⟩ <;> rintro rfl <;> cases hrw
  obtain ⟨hengine, herrors, hpeaks, hresult, hsynth, houtside⟩ := writeReg_frame s v r
  obtain ⟨hirqEn, hcfg, hfs, htol, hmin, hsymLen, hsynLen, hampl⟩ := writeReg_config s v r
  exact ⟨_, hostAccess_write_accepted v hcmd hstatus hwin hfree, rfl, { hengine with }, { herrors with }, { hpeaks with },
    { hresult with }, { hsynth with }, { houtside with }, writeReg_winCount s v, hirqEn, hcfg, hfs, htol, hmin, hsymLen,
    hsynLen, hampl, fun i => (writeReg_tones s v r i).1, fun i => (writeReg_tones s v r i).2, writeReg_ramByte s v r⟩

/-! ## Accesses that change nothing but the bus answer (20 R85) -/

theorem sameData_respond (s : State) (r : Response) : SameData s (s.respond r) where
  config := sameConfig_of_contents rfl
  peaks := samePeaks_of_contents rfl
  result := sameResult_of_contents rfl
  synth := sameSynth_of_contents rfl
  winCount := rfl
  ram := fun _ => rfl
  outside := ⟨rfl, rfl⟩

/-- No interlock names a read-only register (60 R252). -/
theorem not_interlocked_of_readOnly {r : Reg} (s : State) (h : readOnly r = true) : ¬ Interlocked s r := by
  rintro (⟨-, rfl | rfl | rfl | rfl | ⟨i, rfl⟩ | ⟨i, rfl⟩⟩ | ⟨-, rfl | ⟨i, rfl⟩ | ⟨i, rfl⟩ | rfl | rfl | rfl | ⟨i, rfl⟩⟩) <;>
    cases h

theorem writeReg_of_readOnly {r : Reg} (s : State) (v : Word) (h : readOnly r = true) : s.writeReg v r = s := by
  cases r with
  | irqEn | cfg | fs | tol | minSamples | symLen | synLen | ampl | toneLo | toneHi | msg => cases h
  | _ => rfl

/-- A write to a read-only register changes the bus answer only. -/
theorem hostAccess_write_readOnly {r : Reg} (v : Word) (s : State) (h : readOnly r = true) :
    hostAccess (.write r.offset 4 v) s = .next (s.respond .ok) := by
  obtain ⟨hcmd, hstatus, hwin⟩ : r ≠ .cmd ∧ r ≠ .status ∧ r ≠ .winData := by
    refine ⟨?_, ?_, ?_⟩ <;> rintro rfl <;> cases h
  rw [hostAccess_write_accepted v hcmd hstatus hwin (not_interlocked_of_readOnly s h), writeReg_of_readOnly s v h]

/-- A read of a write-only register answers 0: no output of a command is write-only (20 R99). -/
theorem hostAccess_read_writeOnly {r : Reg} (s : State) (h : r = .cmd ∨ r = .winData) :
    hostAccess (.read r.offset 4) s = .next (s.respond (.data 0)) := by
  have hplain : r ≠ .synData := by rcases h with rfl | rfl <;> simp
  have hzero : s.regValue r = 0 := by rcases h with rfl | rfl <;> rfl
  rw [hostAccess_read r s hplain]
  rcases load_cases s r with ⟨hany, -⟩ | ⟨-, e⟩
  · obtain ⟨c, -, hout⟩ := (readsAny_iff s r).1 hany
    rcases h with rfl | rfl <;> simp [OutputReg] at hout
  · rw [e, hzero]

/-- Settles O29: both kinds of access change the bus answer only. -/
theorem readOnlyAndWriteOnlyAccesses : Obligations.ReadOnlyAndWriteOnlyAccesses := by
  unfold Obligations.ReadOnlyAndWriteOnlyAccesses
  have hframe : ∀ (s : State) (q : Response), SameEngine s (s.respond q) ∧ SameErrors s (s.respond q) ∧
      SameData s (s.respond q) := fun s q => ⟨⟨rfl, rfl⟩, ⟨rfl, rfl, rfl, rfl⟩, sameData_respond s q⟩
  exact ⟨fun s r v h => ⟨_, hostAccess_write_readOnly v s h, rfl, hframe s .ok⟩,
    fun s r h => ⟨_, hostAccess_read_writeOnly s h, rfl, hframe s (.data 0)⟩⟩

end Sys2Proof.Machine
end

section
/-!
PROOFS. A BUSY command's outputs are fixed: what the ENGINE reads and publishes, that no host access changes it while the
command stays BUSY, and that the completions depend on nothing else (20 R99, R101; 60 R252).
-/

namespace Sys2Proof.Machine

open Sys2Proof.Safety

/-! ## What the ENGINE reads and publishes -/

/-- The two states agree on all that a completion reads or writes: the configuration of the analysis units, the window, the
outputs, and every byte above MSG, so WIN and SPEC (20 R99; 10 R45, R46). -/
structure SameAnalysis (s t : State) : Prop where
  log2n : t.log2n = s.log2n
  peakK : t.peakK = s.peakK
  fs : t.fs = s.fs
  tol : t.tol = s.tol
  minSamples : t.minSamples = s.minSamples
  toneLo : t.toneLo = s.toneLo
  toneHi : t.toneHi = s.toneHi
  winCount : t.winCount = s.winCount
  peaks : SamePeaks s t
  result : SameResult s t
  ram : ∀ a : Nat, 0x4000 ≤ a → t.ramByte a = s.ramByte a

/-- States with the same contents agree with the same states. -/
theorem SameAnalysis.of_contents {s u t : State} (h : SameAnalysis s u) (hc : t.contents = u.contents) :
    SameAnalysis s t := by
  have hconfig := sameConfig_of_contents hc
  exact {
    log2n := hconfig.log2n.trans h.log2n
    peakK := hconfig.peakK.trans h.peakK
    fs := hconfig.fs.trans h.fs
    tol := hconfig.tol.trans h.tol
    minSamples := hconfig.minSamples.trans h.minSamples
    toneLo := hconfig.toneLo.trans h.toneLo
    toneHi := hconfig.toneHi.trans h.toneHi
    winCount := (winCount_of_contents hc).trans h.winCount
    peaks := samePeaks_trans h.peaks (samePeaks_of_contents hc)
    result := sameResult_trans h.result (sameResult_of_contents hc)
    ram := fun a ha => (ramByte_congr (mem_of_contents hc) a).trans (h.ram a ha) }

/-! ## The completions depend on nothing else -/

section Congruence

variable {s t : State} (h : SameAnalysis s t)
include h

theorem SameAnalysis.windowLength : t.windowLength = s.windowLength := by
  rw [State.windowLength, State.windowLength, h.log2n]

theorem SameAnalysis.xw (i : Nat) : t.xw i = s.xw i := by
  simp only [State.xw, State.win, State.ramHalf, h.winCount, h.ram (winAddr i) (by simp [winAddr]),
    h.ram (winAddr i + 1) (by simp only [winAddr]; omega)]

/-- A word of WIN or SPEC reads the same (20 R84). -/
theorem SameAnalysis.ramWord {a : Nat} (ha : 0x4000 ≤ a) : t.ramWord a = s.ramWord a := by
  simp only [State.ramWord, h.ram a ha, h.ram (a + 1) (by omega), h.ram (a + 2) (by omega), h.ram (a + 3) (by omega)]

theorem SameAnalysis.specRe (k : Nat) : t.specRe k = s.specRe k := h.ramWord (by simp only [specAddr]; omega)

theorem SameAnalysis.specIm (k : Nat) : t.specIm k = s.specIm k := h.ramWord (by simp only [specAddr]; omega)

theorem SameAnalysis.spectrum : t.spectrum = s.spectrum := by
  simp only [State.spectrum, State.fftInput, h.log2n, h.windowLength, h.xw]

theorem SameAnalysis.spectrumBytes : t.spectrumBytes = s.spectrumBytes := by
  rw [State.spectrumBytes, State.spectrumBytes, h.spectrum]

theorem SameAnalysis.completeFft : SameAnalysis (completeFft s) (completeFft t) where
  log2n := h.log2n
  peakK := h.peakK
  fs := h.fs
  tol := h.tol
  minSamples := h.minSamples
  toneLo := h.toneLo
  toneHi := h.toneHi
  winCount := h.winCount
  peaks := { h.peaks with }
  result := { h.result with }
  ram := by
    intro a ha
    rw [completeFft_eq, completeFft_eq, h.spectrumBytes, ramByte_storeBytes, ramByte_storeBytes, h.ram a ha]

theorem SameAnalysis.sqMag (b : Nat) : t.sqMag b = s.sqMag b := by
  simp only [State.sqMag, h.specRe, h.specIm]

theorem SameAnalysis.ranked : t.ranked = s.ranked := by
  simp only [State.ranked, State.candidates, h.windowLength, h.sqMag]

theorem SameAnalysis.slotCount : t.slotCount = s.slotCount := by
  simp only [State.slotCount, h.peakK, h.windowLength]

theorem SameAnalysis.slot (l : List Candidate) (j : Nat) : t.slot l j = s.slot l j := by
  simp only [State.slot, State.freqRaw, h.slotCount, h.fs, h.log2n]

theorem SameAnalysis.completePeaks : SameAnalysis (completePeaks s) (completePeaks t) :=
  { h with
    peaks := ⟨by simp only [Machine.completePeaks, h.slotCount],
      by simp only [Machine.completePeaks, h.ranked, h.slot]⟩
    result := { h.result with } }

theorem SameAnalysis.classifyPosition (i : Fin 8) : t.classifyPosition i = s.classifyPosition i := by
  simp only [State.classifyPosition, State.detected, h.tol, h.toneLo, h.toneHi, h.peaks.cnt, h.peaks.slots]

theorem SameAnalysis.completeClassify : SameAnalysis (completeClassify s) (completeClassify t) :=
  { h with
    peaks := { h.peaks with }
    result := by constructor <;> simp only [Machine.completeClassify, h.classifyPosition] }

/-- Whether DECODE drops the window is decided by WIN_COUNT and MIN_SAMPLES (44 R217). -/
theorem SameAnalysis.completeDecode : SameAnalysis (completeDecode s) (completeDecode t) := by
  simp only [Machine.completeDecode, h.winCount, h.minSamples]
  split
  · exact { h with winCount := rfl, peaks := { h.peaks with }, result := ⟨rfl, rfl, rfl, rfl, h.result.matchFreq⟩ }
  · have hunits := h.completeFft.completePeaks.completeClassify
    exact { hunits with winCount := rfl, peaks := { hunits.peaks with }, result := { hunits.result with } }

/-- The completion of every command gives the same outputs from states that agree (20 R101). -/
theorem SameAnalysis.complete (c : Analysis) : SameAnalysis (s.complete c) (t.complete c) := by
  have hc : SameAnalysis (completionOf c s) (completionOf c t) := by
    cases c with
    | fft => exact h.completeFft
    | peaks => exact h.completePeaks
    | classify => exact h.completeClassify
    | decode => exact h.completeDecode
  exact { hc with peaks := { hc.peaks with }, result := { hc.result with } }

end Congruence

/-! ## No host access changes it while the command stays BUSY -/

/-- Every host access leaves the contents that one effect of it gives. -/
theorem hostAccess_effect {a : Access} {s t : State} (h : hostAccess a s = .next t) :
    ∃ u, Effect s (.host a) u ∧ t.contents = u.contents := by
  obtain ⟨u, hu, htu⟩ := step_effect (s := { s with inputs := .host a :: s.inputs }) ((step_of_host rfl).trans h)
  obtain ⟨u', hu', huu'⟩ := hu.of_inputs
  exact ⟨u', hu', htu.trans huu'⟩

/-- A host access that resets the core leaves ENG IDLE (45 R231). -/
theorem eng_of_hostAccess_isReset {a : Access} {s t : State} (h : hostAccess a s = .next t) (hr : IsReset (.host a)) :
    t.eng = .idle := by
  rcases hr with hpin | hsoft
  · cases hpin
  · cases hsoft
    cases (show hostAccess (encode .softReset) s = _ from rfl).symm.trans h
    rfl

/-- A host access keeps a BUSY command, or a reset aborts it (30 R113, 45 R232). -/
theorem hostAccess_eng {a : Access} {s t : State} (h : hostAccess a s = .next t) (hbusy : s.eng ≠ .idle) :
    t.eng = s.eng ∨ t.eng = .idle := by
  rcases hostAccess_cases h with ⟨i, -, he⟩ | ⟨r, -, rfl⟩ | ⟨r, v, -, rfl⟩ | ⟨why, -, rfl⟩
  · rcases exec_cases he with ⟨f, rfl⟩ | ⟨-, rfl⟩ | ⟨-, idle, -⟩ | ⟨c, idle, -⟩ | ⟨-, rfl⟩ | ⟨-, rfl⟩ | ⟨-, rfl⟩ |
      ⟨v, -, idle, -, -⟩ | ⟨-, -, r, rfl⟩ | ⟨-, -, r, rfl⟩ | ⟨v, -, rfl⟩
    · exact .inl (State.setErr_eng s f)
    · exact .inl rfl
    · exact absurd idle hbusy
    · exact absurd idle hbusy
    · exact .inl rfl
    · exact .inl rfl
    · exact .inr rfl
    · exact absurd idle hbusy
    · exact .inl rfl
    · exact .inl rfl
    · exact .inl rfl
  · rcases load_cases s r with ⟨-, e⟩ | ⟨-, e⟩ <;> rw [e] <;> exact .inl rfl
  · rcases store_cases s r v with ⟨-, e⟩ | ⟨-, e⟩ <;> rw [e]
    · exact .inl rfl
    · obtain ⟨hengine, -⟩ := writeReg_frame s v r
      exact .inl hengine.eng
  · rcases reject_cases s why with e | e <;> rw [e] <;> exact .inl rfl

/-- While ENG is BUSY no accepted store reaches what the ENGINE reads: the interlocks hold its configuration (60 R252), and
a MSG byte lies below WIN and SPEC (20 R81). -/
theorem sameAnalysis_writeReg {s : State} {r : Reg} (v : Word) (hbusy : s.eng ≠ .idle) (hacc : s.storeRefused r = false) :
    SameAnalysis s (s.writeReg v r) := by
  have hlock : lockedByEngine r = false := by
    rw [State.storeRefused, (State.isBusy_eq_true s).2 hbusy, Bool.true_and, Bool.or_eq_false_iff] at hacc
    exact hacc.1
  cases r with
  | cfg => cases hlock
  | fs => cases hlock
  | tol => cases hlock
  | minSamples => cases hlock
  | toneLo => cases hlock
  | toneHi => cases hlock
  | msg i =>
    refine ⟨rfl, rfl, rfl, rfl, rfl, rfl, rfl, rfl, ⟨rfl, rfl⟩, ⟨rfl, rfl, rfl, rfl, rfl⟩, fun a ha => ?_⟩
    refine ramByte_storeBytes_out s (.inr ?_)
    simp only [msgAddr, List.length_cons, List.length_nil]
    omega
  | _ => exact ⟨rfl, rfl, rfl, rfl, rfl, rfl, rfl, rfl, ⟨rfl, rfl⟩, ⟨rfl, rfl, rfl, rfl, rfl⟩, fun _ _ => rfl⟩

/-- While ENG is BUSY no host access but a reset reaches what the ENGINE reads. -/
theorem Effect.sameAnalysis {s u : State} {a : Access} (h : Effect s (.host a) u) (hbusy : s.eng ≠ .idle)
    (hreset : ¬ IsReset (.host a)) : SameAnalysis s u := by
  cases h with
  | reset isReset => exact absurd isReset hreset
  | winClear idle => exact absurd idle hbusy
  | winPush v idle => exact absurd idle hbusy
  | store r v accepted => exact sameAnalysis_writeReg v hbusy accepted
  | _ => exact ⟨rfl, rfl, rfl, rfl, rfl, rfl, rfl, rfl, ⟨rfl, rfl⟩, ⟨rfl, rfl, rfl, rfl, rfl⟩, fun _ _ => rfl⟩

/-- Settles O19: the access leaves the command and all that its completion reads, and the completion depends on nothing else. -/
theorem busyCommandOutputsAreFixed : Obligations.BusyCommandOutputsAreFixed := by
  unfold Obligations.BusyCommandOutputsAreFixed
  intro s t c a hbusy h hstays
  have hne : s.eng ≠ .idle := by simp [hbusy]
  have heng : t.eng = s.eng := (hostAccess_eng h hne).resolve_right hstays
  obtain ⟨u, hu, htu⟩ := hostAccess_effect h
  have hsame := ((hu.sameAnalysis hne (hstays ∘ eng_of_hostAccess_isReset h)).of_contents htu).complete c
  exact ⟨heng.trans hbusy, hsame.result, hsame.peaks, hsame.winCount, fun k => ⟨hsame.specRe k, hsame.specIm k⟩, hsame.xw⟩

end Sys2Proof.Machine
end

section
/-!
PROOFS. The decoder and the encoder agree, and a CMD write that is no command sets ERR_ILLEGAL only (30 R110 to R120).
-/

namespace Sys2Proof

open Sys2Proof.Machine Sys2Proof.Safety

/-! ## Both directions (30 R112, R117) -/

/-- Settles O1: an instruction's access decodes to it, and what decodes to it is that access. -/
theorem decodeInvertsEncode : Obligations.DecodeInvertsEncode := by
  unfold Obligations.DecodeInvertsEncode
  refine fun a i => ⟨eq_encode_of_decode, ?_⟩
  rintro rfl
  exact decode_encode i

/-- Two instructions never share an access. -/
theorem encode_injective : Function.Injective encode := fun i j h =>
  Decoded.instr.inj ((decode_encode i).symm.trans ((congrArg decode h).trans (decode_encode j)))

/-! ## CMD writes (30 R113, R115, R116) -/

theorem decode_cmdWrite (v : Word) : decode (cmdWrite v) = decodeCommand v := decode_write .cmd v

/-- The CODEs of the nine commands, in the table's order (30 R112). -/
theorem commandOfCode_eq_getElem? (n : Nat) : commandOfCode n =
    [Instr.nop, .winClear, .fft, .peaks, .classify, .decode, .synStart, .synStop, .softReset][n]? := by
  by_cases hn : n < 9
  · have hcodes : ∀ m < 9, commandOfCode m =
        [Instr.nop, .winClear, .fft, .peaks, .classify, .decode, .synStart, .synStop, .softReset][m]? := by decide
    exact hcodes n hn
  · rw [List.getElem?_eq_none (Nat.le_of_not_lt hn)]
    unfold commandOfCode
    split
    case h_10 => rfl
    all_goals omega

theorem commandOfCode_eq_none_iff (n : Nat) : commandOfCode n = none ↔ 9 ≤ n := by
  rw [commandOfCode_eq_getElem?, List.getElem?_eq_none_iff]
  rfl

/-- A value that is a command's CODE decodes to the command: the write is the command's own access. -/
theorem decode_cmdWrite_of_command {v : Word} {i : Instr} (h : commandOfCode v.toNat = some i) :
    decode (cmdWrite v) = .instr i := by
  have hown : encode i = cmdWrite v := by
    rw [encode_of_commandOfCode h, BitVec.ofNat_toNat, BitVec.setWidth_eq, cmdWrite]
  rw [← hown, decode_encode]

/-- Bits 31:4 of a CMD value are clear exactly below 16. -/
theorem reservedBits_clear_iff (v : Word) : v.extractLsb' 4 28 = 0#28 ↔ v.toNat < 16 := by
  have hv := v.isLt
  rw [← BitVec.toNat_inj, BitVec.extractLsb'_toNat, Nat.shiftRight_eq_div_pow, BitVec.toNat_ofNat]
  omega

theorem decode_cmdWrite_reservedBits {v : Word} (h : 16 ≤ v.toNat) : decode (cmdWrite v) = .rejected .reservedBits := by
  have hset : v.extractLsb' 4 28 ≠ 0#28 := fun hclear => absurd ((reservedBits_clear_iff v).1 hclear) (by omega)
  rw [decode_cmdWrite, decodeCommand, if_pos hset]

theorem decode_cmdWrite_reservedCode {v : Word} (h : 9 ≤ v.toNat) (h' : v.toNat < 16) :
    decode (cmdWrite v) = .rejected .reservedCode := by
  have hcode : (v.extractLsb' 0 4).toNat = v.toNat := by
    rw [BitVec.extractLsb'_toNat, Nat.shiftRight_zero]
    omega
  rw [decode_cmdWrite, decodeCommand, if_neg (not_not.2 ((reservedBits_clear_iff v).2 h')), hcode,
    (commandOfCode_eq_none_iff v.toNat).2 h]

/-- Settles O2: the three ranges of the value, the nine commands through the table of CODEs. -/
theorem commandWordsDecodeByCode : Obligations.CommandWordsDecodeByCode := by
  unfold Obligations.CommandWordsDecodeByCode
  exact fun v => ⟨fun i hi => decode_cmdWrite_of_command ((commandOfCode_eq_getElem? v.toNat).trans hi),
    decode_cmdWrite_reservedCode, decode_cmdWrite_reservedBits⟩

/-- A CMD write of no command raises ERR_ILLEGAL, in every state (30 R115, R116). -/
theorem hostAccess_illegalCommand (s : State) {v : Word} (h : 9 ≤ v.toNat) :
    hostAccess (cmdWrite v) s = .next (s.refuse .illegal) := by
  rcases lt_or_ge v.toNat 16 with hcode | hbits
  · rw [hostAccess, decode_cmdWrite_reservedCode h hcode]
    rfl
  · rw [hostAccess, decode_cmdWrite_reservedBits hbits]
    rfl

/-- Settles O21: below 9 the value is a CODE of the table, and from 9 on the write is refused. -/
theorem illegalCommandSetsOnlyErrIllegal : Obligations.IllegalCommandSetsOnlyErrIllegal := by
  unfold Obligations.IllegalCommandSetsOnlyErrIllegal
  refine fun s v => ⟨fun hlt => ?_, fun hge => ?_⟩
  · have hcommand : commandOfCode v.toNat ≠ none := fun hnone =>
      absurd ((commandOfCode_eq_none_iff v.toNat).1 hnone) (by omega)
    obtain ⟨i, hi⟩ := Option.ne_none_iff_exists'.1 hcommand
    exact ⟨i, decode_cmdWrite_of_command hi⟩
  · exact ⟨_, hostAccess_illegalCommand s hge, rfl, by simp, onlyRaises_setErr s .illegal .ok⟩

/-! ## Words of the opcode table (log 10) -/

/-- A table word that stands for an instruction's own access is that instruction. -/
theorem decodeTableWord_of_encode {nbits w : Nat} {i : Instr} (h : accessOfTableWord nbits w = some (encode i)) :
    decodeTableWord nbits w = some i := by
  rw [decodeTableWord, h]
  exact congrArg Decoded.instr? (decode_encode i)

/-- A 32-bit table word from 9 on is no instruction (30 R115, R116). -/
theorem decodeTableWord_illegalCommand {w : Nat} (h : 9 ≤ w) (hw : w < 2 ^ 32) : decodeTableWord 32 w = none := by
  have hval : (BitVec.ofNat 32 w).toNat = w := by rw [BitVec.toNat_ofNat, Nat.mod_eq_of_lt hw]
  change (decode (cmdWrite (BitVec.ofNat 32 w))).instr? = none
  rcases lt_or_ge w 16 with hcode | hbits
  · rw [decode_cmdWrite_reservedCode (by omega) (by omega)]
    rfl
  · rw [decode_cmdWrite_reservedBits (by omega)]
    rfl

/-- Settles O4: each word's access is the encoding of its instruction, and 0x10 and 0x9 are no commands. -/
theorem sampleWordsDecode : Obligations.SampleWordsDecode := by
  unfold Obligations.SampleWordsDecode
  exact ⟨decodeTableWord_of_encode rfl, decodeTableWord_of_encode rfl, decodeTableWord_illegalCommand (by omega) (by omega),
    decodeTableWord_illegalCommand (by omega) (by omega), decodeTableWord_of_encode rfl, decodeTableWord_of_encode rfl,
    decodeTableWord_of_encode rfl, decodeTableWord_of_encode rfl, decode_encode .synStart, decode_read .status⟩

end Sys2Proof
end

section
/-!
PROOFS. What an instruction leaves alone (30 R111), and the acceptance of an analysis command (30 R114).
-/

namespace Sys2Proof.Machine

open Sys2Proof.Safety

/-! ## The configuration registers (10 R26 to R35, R40) -/

theorem sameConfig_trans {s u t : State} (h : SameConfig s u) (h' : SameConfig u t) : SameConfig s t where
  irqEn := h'.irqEn.trans h.irqEn
  log2n := h'.log2n.trans h.log2n
  peakK := h'.peakK.trans h.peakK
  fs := h'.fs.trans h.fs
  tol := h'.tol.trans h.tol
  minSamples := h'.minSamples.trans h.minSamples
  symLen := h'.symLen.trans h.symLen
  synLen := h'.synLen.trans h.synLen
  ampl := h'.ampl.trans h.ampl
  toneLo := h'.toneLo.trans h.toneLo
  toneHi := h'.toneHi.trans h.toneHi

/-- A register whose write is an instruction is no configuration register: a store of it writes nothing (30 R117). -/
theorem writeReg_of_decodeWrite_instr (s : State) {r : Reg} {v : Word} {i : Instr} (h : decodeWrite v r = .instr i) :
    s.writeReg v r = s := by
  cases r with
  | cmd | status | winData => rfl
  | _ => cases h

/-- The effect of an instruction other than SOFT_RESET keeps the configuration registers. -/
theorem Effect.sameConfig {s u : State} {a : Access} {i : Instr} (h : Effect s (.host a) u) (hinstr : decode a = .instr i)
    (hreset : ¬ IsReset (.host a)) : SameConfig s u := by
  cases h with
  | reset isReset => exact absurd isReset hreset
  | store r v =>
    rw [decode_write] at hinstr
    rw [writeReg_of_decodeWrite_instr s hinstr]
    exact sameConfig_of_contents rfl
  | _ => exact ⟨rfl, rfl, rfl, rfl, rfl, rfl, rfl, rfl, rfl, rfl, rfl⟩

/-! ## Every instruction -/

/-- SOFT_RESET is the only instruction that resets the core (45 R231). -/
theorem eq_softReset_of_isReset {i : Instr} (h : IsReset (.host (encode i))) : i = .softReset := by
  rcases h with hpin | hsoft
  · cases hpin
  · exact encode_injective (Input.host.inj hsoft)

/-- No instruction writes the pending inputs or draws a free value (logs 1 and 4). -/
theorem exec_sameOutside {i : Instr} {s t : State} (h : exec i s = .next t) : SameOutside s t := by
  rcases exec_cases h with ⟨f, rfl⟩ | ⟨-, rfl⟩ | ⟨-, -, rfl⟩ | ⟨c, -, rfl⟩ | ⟨-, rfl⟩ | ⟨-, rfl⟩ | ⟨-, rfl⟩ |
    ⟨v, -, -, -, rfl⟩ | ⟨-, -, r, rfl⟩ | ⟨-, -, r, rfl⟩ | ⟨v, -, rfl⟩
  case inl => exact (onlyRaises_setErr s f .ok).data.outside
  all_goals exact ⟨rfl, rfl⟩

/-- Settles O35: only a reset, a completion or a plain store reaches these registers, and of these only SOFT_RESET is an
instruction. -/
theorem instructionsKeepConfiguration : Obligations.InstructionsKeepConfiguration := by
  unfold Obligations.InstructionsKeepConfiguration
  intro s t i h
  obtain ⟨hinputs, hdraws⟩ := exec_sameOutside h
  refine ⟨hinputs, hdraws, fun hi => ?_⟩
  obtain ⟨u, hu, htu⟩ := exec_effect h
  have hreset : ¬ IsReset (.host (encode i)) := hi ∘ eq_softReset_of_isReset
  have hcompletes : ∀ c, ¬ Completes c s (.host (encode i)) := by
    rintro c ⟨hmove, -⟩
    cases hmove
  exact ⟨sameConfig_trans (hu.sameConfig (decode_encode i) hreset) (sameConfig_of_contents htu),
    samePeaks_trans (hu.samePeaks hreset (hcompletes _) (hcompletes _)) (samePeaks_of_contents htu),
    sameResult_trans (hu.sameResult hreset (hcompletes _) (hcompletes _)) (sameResult_of_contents htu)⟩

/-! ## The analysis commands (30 R114) -/

/-- STATUS.BUSY is bit 0 (10 R25). -/
theorem statusWord_bit_zero (s : State) : s.statusWord.getLsbD 0 = s.isBusy :=
  BitVec.getLsbD_append.trans (by simp)

/-- With ENG IDLE an analysis command is accepted: ENG becomes BUSY. -/
theorem startAnalysis_of_idle {s : State} (c : Analysis) (hidle : s.eng = .idle) :
    s.startAnalysis c = { s with eng := .busy c }.respond .ok := by
  rcases startAnalysis_cases s c with ⟨-, e⟩ | ⟨hbusy, -⟩
  · exact e
  · exact absurd hidle hbusy

/-- Setting ENG and answering leaves all data as it was. -/
theorem sameData_setEng_respond (s : State) (e : Engine) (r : Response) : SameData s ({ s with eng := e }.respond r) where
  config := sameConfig_of_contents rfl
  peaks := samePeaks_of_contents rfl
  result := sameResult_of_contents rfl
  synth := sameSynth_of_contents rfl
  winCount := rfl
  ram := fun _ => rfl
  outside := ⟨rfl, rfl⟩

/-- Settles O36: the command is accepted, and the ENGINE's turn from BUSY completes it. -/
theorem analysisCommandAccepted : Obligations.AnalysisCommandAccepted := by
  unfold Obligations.AnalysisCommandAccepted
  intro s i c hi hidle
  have hexec : exec i s = .next ({ s with eng := .busy c }.respond .ok) := by
    rw [← startAnalysis_of_idle c hidle]
    rcases hi with ⟨rfl, rfl⟩ | ⟨rfl, rfl⟩ | ⟨rfl, rfl⟩ | ⟨rfl, rfl⟩ <;> rfl
  refine ⟨_, hexec, rfl, rfl, ?_, rfl, ⟨rfl, rfl, rfl, rfl⟩, sameData_setEng_respond s _ _, rfl⟩
  rw [statusWord_bit_zero]
  rfl

end Sys2Proof.Machine
end

section
/-!
PROOFS. The complex product rounds once, and the two twiddle factors that are exact (40 R133, R134).
-/

namespace Sys2Proof.Machine

/-- A product is rounded to nearest, ties toward plus infinity (40 R134). -/
theorem roundProduct_bounds (v : Int) : v - 2 ^ 14 < 2 ^ 15 * roundProduct v ∧ 2 ^ 15 * roundProduct v ≤ v + 2 ^ 14 := by
  unfold roundProduct
  omega

/-- A whole multiple of the full scale is not rounded (40 R134). -/
theorem roundProduct_fullScale (v : Int) : roundProduct (32768 * v) = v := by
  unfold roundProduct
  omega

/-- W(k, M) from its phase index (40 R133). -/
theorem twiddle_of_phase {k m p : Nat} (h : k * (4096 / m) = p) : twiddle k m = ⟨sine (p + 1024), -sine p⟩ := by
  rw [← h, twiddle]

/-- W(0, M) = 1 for every M (40 R133). -/
theorem twiddle_zero (m : Nat) : twiddle 0 m = ⟨32768, 0⟩ := by
  rw [twiddle_of_phase (Nat.zero_mul _)]
  decide

/-- The product by W(0, M) is exact (40 R134). -/
theorem cmul_twiddle_zero (m : Nat) (o : Cplx) : cmul (twiddle 0 m) o = o := by
  simp only [twiddle_zero, cmul, zero_mul, sub_zero, add_zero, roundProduct_fullScale]

/-- A quarter of every size M = 4, ..., 4096 lies at phase index 1024 (40 R133). -/
theorem phase_quarter {l : Nat} (hlo : 2 ≤ l) (hhi : l ≤ 12) : 2 ^ l / 4 * (4096 / 2 ^ l) = 1024 := by
  have hquarter : 2 ^ l / 2 ^ 2 = 2 ^ (l - 2) := Nat.pow_div hlo two_pos
  have hstride : 2 ^ 12 / 2 ^ l = 2 ^ (12 - l) := Nat.pow_div hhi two_pos
  calc 2 ^ l / 2 ^ 2 * (2 ^ 12 / 2 ^ l)
    _ = 2 ^ (l - 2 + (12 - l)) := by rw [hquarter, hstride, pow_add]
    _ = 2 ^ 10 := by rw [show l - 2 + (12 - l) = 10 by omega]

/-- W(M/4, M) = -i (40 R133). -/
theorem twiddle_quarter {l : Nat} (hlo : 2 ≤ l) (hhi : l ≤ 12) : twiddle (2 ^ l / 4) (2 ^ l) = ⟨0, -32768⟩ := by
  rw [twiddle_of_phase (phase_quarter hlo hhi)]
  decide

/-- Settles O43: each component is one rounding, and W(0, M), W(M/4, M) are exact ROM entries. -/
theorem complexProductRoundsOnce : Obligations.ComplexProductRoundsOnce := by
  unfold Obligations.ComplexProductRoundsOnce
  refine ⟨?_, fun m o => ⟨twiddle_zero m, cmul_twiddle_zero m o⟩, fun l => twiddle_quarter⟩
  rintro w o t rfl
  exact ⟨roundProduct_bounds _, roundProduct_bounds _⟩

end Sys2Proof.Machine
end

section
/-!
PROOFS. The in-place iterative form of the transform agrees with the recursion (40 R140): the stages of a concatenation of two
halves are the stages of each half, so they are the two transforms that the last stage combines.
-/

namespace Sys2Proof.Machine

open Sys2Proof.Safety

/-! ## Lengths -/

theorem length_twiddled (half : Nat) (o : List Cplx) : (twiddled half o).length = min half o.length := by
  simp [twiddled]

theorem length_butterflies (e t : List Cplx) : (butterflies e t).length = 2 * min e.length t.length := by
  simp only [butterflies, List.length_append, List.length_zipWith]
  omega

theorem length_evens {l : Nat} {a : List Cplx} (h : a.length = 2 ^ (l + 1)) : (evens a).length = 2 ^ l := by
  rw [(length_evens_odds a).1, h, pow_succ]
  omega

theorem length_odds {l : Nat} {a : List Cplx} (h : a.length = 2 ^ (l + 1)) : (odds a).length = 2 ^ l := by
  rw [(length_evens_odds a).2, h, pow_succ]
  omega

theorem length_bitReversed (l : Nat) (a : List Cplx) (h : a.length = 2 ^ l) : (bitReversed l a).length = 2 ^ l := by
  induction l generalizing a with
  | zero => exact h
  | succ l ih =>
    rw [bitReversed, List.length_append, ih _ (length_evens h), ih _ (length_odds h), pow_succ]
    omega

theorem length_blockButterflies {half : Nat} {b : List Cplx} (h : b.length = 2 * half) :
    (blockButterflies half b).length = 2 * half := by
  rw [blockButterflies, length_butterflies, length_twiddled, List.length_take, List.length_drop, h]
  omega

theorem length_stage (half n : Nat) (a : List Cplx) (h : a.length = n * (2 * half)) : (stage half n a).length = a.length := by
  induction n generalizing a with
  | zero => rw [h, stage, List.length_nil, Nat.zero_mul]
  | succ n ih =>
    rw [Nat.succ_mul] at h
    have hblock : (a.take (2 * half)).length = 2 * half := by rw [List.length_take]; omega
    have hrest : (a.drop (2 * half)).length = n * (2 * half) := by rw [List.length_drop]; omega
    rw [stage, List.length_append, length_blockButterflies hblock, ih _ hrest, hrest, h, Nat.add_comm]

theorem length_stages (l r : Nat) (a : List Cplx) (h : a.length = 2 ^ r * 2 ^ l) : (stages l r a).length = a.length := by
  induction l generalizing r with
  | zero => rfl
  | succ l ih =>
    have hinner : (stages l (r + 1) a).length = a.length := ih (r + 1) (by rw [h]; ring)
    rw [stages, length_stage _ _ _ (by rw [hinner, h]; ring), hinner]

/-! ## Concatenations of blocks -/

/-- A stage over m + n blocks is the stage over the first m and the stage over the other n. -/
theorem stage_append (half m n : Nat) (x y : List Cplx) (h : x.length = m * (2 * half)) :
    stage half (m + n) (x ++ y) = stage half m x ++ stage half n y := by
  induction m generalizing x with
  | zero =>
    rw [Nat.zero_mul] at h
    rw [List.eq_nil_of_length_eq_zero h, Nat.zero_add, stage, List.nil_append, List.nil_append]
  | succ m ih =>
    rw [Nat.succ_mul] at h
    have hrest : (x.drop (2 * half)).length = m * (2 * half) := by rw [List.length_drop]; omega
    rw [Nat.succ_add, stage, stage, List.take_append_of_le_length (by omega), List.drop_append_of_le_length (by omega),
      ih _ hrest, List.append_assoc]

/-- The stages over two halves are the stages over each. -/
theorem stages_append (l r : Nat) (x y : List Cplx) (hx : x.length = 2 ^ r * 2 ^ l) (hy : y.length = 2 ^ r * 2 ^ l) :
    stages l (r + 1) (x ++ y) = stages l r x ++ stages l r y := by
  induction l generalizing r with
  | zero => rfl
  | succ l ih =>
    have hx' : x.length = 2 ^ (r + 1) * 2 ^ l := by rw [hx]; ring
    have hy' : y.length = 2 ^ (r + 1) * 2 ^ l := by rw [hy]; ring
    have hblocks : (stages l (r + 1) x).length = 2 ^ r * (2 * 2 ^ l) := by rw [length_stages _ _ _ hx', hx]; ring
    rw [stages, ih (r + 1) hx' hy', show 2 ^ (r + 1) = 2 ^ r + 2 ^ r by ring, stage_append _ _ _ _ _ hblocks, stages, stages]

/-- A stage over one block of two halves is the butterflies of the halves (40 R132). -/
theorem stage_one_append {half : Nat} {e o : List Cplx} (he : e.length = half) (ho : o.length = half) :
    stage half 1 (e ++ o) = butterflies e (twiddled half o) := by
  have hlen : (e ++ o).length = 2 * half := by rw [List.length_append]; omega
  rw [stage, stage, List.append_nil, List.take_of_length_le hlen.le, blockButterflies, List.take_left' he, List.drop_left' he]

/-- Settles O42, by induction on the number of stages: the last stage combines the transforms of the two halves. -/
theorem iterativeTransformAgrees : Obligations.IterativeTransformAgrees := by
  unfold Obligations.IterativeTransformAgrees
  intro l
  induction l with
  | zero => exact fun a _ => rfl
  | succ l ih =>
    intro a ha
    have heven := length_evens ha
    have hodd := length_odds ha
    calc iterativeFft (l + 1) a
      _ = stage (2 ^ l) 1 (stages l 1 (bitReversed l (evens a) ++ bitReversed l (odds a))) := rfl
      _ = stage (2 ^ l) 1 (iterativeFft l (evens a) ++ iterativeFft l (odds a)) := by
          rw [stages_append l 0 _ _ (by rw [length_bitReversed l _ heven]; ring) (by rw [length_bitReversed l _ hodd]; ring)]
          rfl
      _ = stage (2 ^ l) 1 (fft l (evens a) ++ fft l (odds a)) := by rw [ih _ heven, ih _ hodd]
      _ = fft (l + 1) a := stage_one_append (length_fft l _ heven) (length_fft l _ hodd)

end Sys2Proof.Machine
end

section
/-!
PROOFS. The FFT command publishes the transform of the effective window (40 R130, R131): every component of the transform fits
the 32 bits of its word, so SPEC holds it unchanged.
-/

namespace Sys2Proof.Machine

open Sys2Proof.Safety

/-! ## Components of 32 bits (40 R135) -/

/-- Both components are values of signed 32-bit words. -/
structure Cplx.Fits (z : Cplx) : Prop where
  re : (BitVec.ofInt 32 z.re).toInt = z.re
  im : (BitVec.ofInt 32 z.im).toInt = z.im

/-- What wrap32 gives is the value of a 32-bit word. -/
theorem toInt_ofInt_wrap32 (v : Int) : (BitVec.ofInt 32 (wrap32 v)).toInt = wrap32 v := by
  rw [wrap32, BitVec.ofInt_toInt]

/-- wrap32 leaves a value of 32 bits alone. -/
theorem wrap32_of_range {v : Int} (hlo : -2 ^ 31 ≤ v) (hhi : v < 2 ^ 31) : wrap32 v = v :=
  BitVec.toInt_ofInt_eq_self (by omega) hlo hhi

theorem Cplx.add_fits (a b : Cplx) : (a.add b).Fits := ⟨toInt_ofInt_wrap32 _, toInt_ofInt_wrap32 _⟩

theorem Cplx.sub_fits (a b : Cplx) : (a.sub b).Fits := ⟨toInt_ofInt_wrap32 _, toInt_ofInt_wrap32 _⟩

/-- Every butterfly output is a sum or a difference (40 R132). -/
theorem mem_butterflies {e t : List Cplx} {z : Cplx} (h : z ∈ butterflies e t) :
    ∃ a b : Cplx, z = a.add b ∨ z = a.sub b := by
  rw [butterflies, List.mem_append] at h
  rcases h with h | h <;> obtain ⟨i, hi, rfl⟩ := List.mem_iff_getElem.1 h <;> rw [List.getElem_zipWith]
  · exact ⟨_, _, .inl rfl⟩
  · exact ⟨_, _, .inr rfl⟩

/-- A transform of two or more values ends in a wrap, so its components fit (40 R135). -/
theorem fits_of_mem_fft {l : Nat} {a : List Cplx} {z : Cplx} (hl : 1 ≤ l) (h : z ∈ fft l a) : z.Fits := by
  obtain ⟨l, rfl⟩ := Nat.exists_eq_add_of_le' hl
  obtain ⟨x, y, rfl | rfl⟩ := mem_butterflies h
  · exact x.add_fits y
  · exact x.sub_fits y

/-! ## SPEC after FFT (40 R131) -/

/-- SPEC[k] holds the k-th component of the spectrum. -/
theorem completeFft_spec {s : State} (hs : LegalRegs s) {k : Nat} {z : Cplx} (hz : s.spectrum[k]? = some z) :
    ((completeFft s).specRe k).toInt = z.re ∧ ((completeFft s).specIm k).toInt = z.im := by
  obtain ⟨hk, rfl⟩ := List.getElem?_eq_some_iff.1 hz
  have hfits : s.spectrum[k].Fits := fits_of_mem_fft (le_trans (by decide) hs.log2n_lo) (List.getElem_mem hk)
  rw [completeFft, specRe_setSpec, specIm_setSpec, dif_pos (by rwa [List.length_map]), dif_pos (by rwa [List.length_map]),
    List.getElem_map]
  exact ⟨hfits.re, hfits.im⟩

/-- FFT writes no byte outside SPEC[0..N-1]. -/
theorem completeFft_ramByte_out (s : State) {a : Nat} (h : a < specAddr 0 ∨ specAddr s.windowLength ≤ a) :
    (completeFft s).ramByte a = s.ramByte a := by
  refine ramByte_setSpec_out s _ ?_
  rwa [List.length_map, length_spectrum]

/-- Settles O40: the write is accepted, and the ENGINE's turn writes the spectrum and DONE. -/
theorem fftCommandPublishesSpectrum : Obligations.FftCommandPublishesSpectrum := by
  unfold Obligations.FftCommandPublishesSpectrum
  intro s hs hidle
  have hstart : exec .fft s = .next ({ s with eng := .busy .fft }.respond .ok) :=
    congrArg Host.Outcome.next (startAnalysis_of_idle .fft hidle)
  refine ⟨_, _, hstart, rfl, rfl, ⟨hidle.symm, rfl⟩, ⟨rfl, rfl, rfl, rfl⟩,
    ⟨rfl, rfl, rfl, rfl, rfl, rfl, rfl, rfl, rfl, rfl, rfl⟩, ⟨rfl, rfl⟩, ⟨rfl, rfl, rfl, rfl, rfl⟩, ⟨rfl, rfl, rfl, rfl⟩,
    rfl, ⟨rfl, rfl⟩, ⟨s.spectrum, rfl, length_spectrum s, fun k hk => ?_⟩, fun a ha => ?_⟩
  · exact completeFft_spec hs (List.getElem?_eq_getElem hk)
  · exact (ramByte_congr (s := completeFft s) rfl a).trans (completeFft_ramByte_out s ha)

end Sys2Proof.Machine
end

section
/-!
PROOFS. The exact bins of the transform (40 R137): SPEC[0] is the sum of the window and SPEC[N/2] its alternating sum, because
every product on their paths is by W(0, M) = 1 and no sum leaves 32 bits.
-/

namespace Sys2Proof.Machine

open Sys2Proof.Safety

/-! ## Sums over the even and odd subsequences (40 R132) -/

theorem mem_of_mem_evens {z : Cplx} : ∀ {a : List Cplx}, z ∈ evens a → z ∈ a
  | [_], h => h
  | _ :: _ :: _, h => (List.mem_cons.1 h).elim (fun e => by simp [e]) fun h => by simp [mem_of_mem_evens h]

theorem mem_of_mem_odds {z : Cplx} : ∀ {a : List Cplx}, z ∈ odds a → z ∈ a
  | _ :: _ :: _, h => (List.mem_cons.1 h).elim (fun e => by simp [e]) fun h => by simp [mem_of_mem_odds h]

/-- The sum of the real parts. -/
def sumRe (a : List Cplx) : Int := (a.map Cplx.re).sum

theorem sumRe_cons (z : Cplx) (a : List Cplx) : sumRe (z :: a) = z.re + sumRe a := by
  rw [sumRe, List.map_cons, List.sum_cons, sumRe]

theorem sumRe_eq_evens_add_odds : ∀ a : List Cplx, sumRe a = sumRe (evens a) + sumRe (odds a)
  | [] => rfl
  | [z] => (add_zero _).symm
  | x :: y :: a => by
    rw [evens, odds, sumRe_cons, sumRe_cons, sumRe_cons, sumRe_cons, sumRe_eq_evens_add_odds a]
    ring

theorem alternatingSum_re_eq_evens_sub_odds :
    ∀ a : List Cplx, (a.map Cplx.re).alternatingSum = sumRe (evens a) - sumRe (odds a)
  | [] => rfl
  | [z] => by simp [evens, odds, sumRe]
  | x :: y :: a => by
    rw [List.map_cons, List.map_cons, List.alternatingSum, alternatingSum_re_eq_evens_sub_odds a, evens, odds, sumRe_cons,
      sumRe_cons]
    ring

/-- The alternating sum of values given by index. -/
theorem alternatingSum_map_range (f : Nat → Int) (n : Nat) :
    ((List.range n).map f).alternatingSum = ((List.range n).map fun i => (-1) ^ i * f i).sum := by
  induction n with
  | zero => rfl
  | succ n ih =>
    rw [List.sum_range_succ, ← ih, List.range_succ, List.map_append, List.alternatingSum_append, List.length_map,
      List.length_range]
    simp [List.alternatingSum]

/-! ## Samples -/

/-- A real value in the range of a 16-bit sample (30 R118). -/
structure Cplx.IsSample (z : Cplx) : Prop where
  im : z.im = 0
  lo : -2 ^ 15 ≤ z.re
  hi : z.re ≤ 2 ^ 15

/-- A sum of at most 4096 samples is far from 32 bits (40 R136). -/
theorem sumRe_bounds {l : Nat} {a : List Cplx} (hl : l ≤ 12) (ha : a.length = 2 ^ l) (hs : ∀ z ∈ a, z.IsSample) :
    -2 ^ 27 ≤ sumRe a ∧ sumRe a ≤ 2 ^ 27 := by
  have hlen : a.length ≤ 2 ^ 12 := ha ▸ Nat.pow_le_pow_right two_pos hl
  have hlo := List.card_nsmul_le_sum (a.map Cplx.re) (-2 ^ 15) (by simpa using fun z hz => (hs z hz).lo)
  have hhi := List.sum_le_card_nsmul (a.map Cplx.re) (2 ^ 15) (by simpa using fun z hz => (hs z hz).hi)
  rw [List.length_map, nsmul_eq_mul] at hlo hhi
  unfold sumRe
  omega

/-! ## The bins of the butterflies (40 R132) -/

theorem twiddled_getElem? {half k : Nat} {os : List Cplx} {o : Cplx} (hk : k < half) (ho : os[k]? = some o) :
    (twiddled half os)[k]? = some (cmul (twiddle k (2 * half)) o) :=
  List.getElem?_zipWith_eq_some.2 ⟨k, o, List.getElem?_range hk, ho, rfl⟩

/-- Bin k below M/2 is the sum E[k] + t (40 R132). -/
theorem butterflies_getElem?_add {k : Nat} {es ts : List Cplx} {e t : Cplx} (he : es[k]? = some e) (ht : ts[k]? = some t) :
    (butterflies es ts)[k]? = some (e.add t) := by
  have hsum : (List.zipWith Cplx.add es ts)[k]? = some (e.add t) :=
    List.getElem?_zipWith_eq_some.2 ⟨e, t, he, ht, rfl⟩
  rw [butterflies, List.getElem?_append_left (List.getElem?_eq_some_iff.1 hsum).1, hsum]

/-- Bin M/2 + k is the difference E[k] - t (40 R132). -/
theorem butterflies_getElem?_sub {half k : Nat} {es ts : List Cplx} {e t : Cplx} (hes : es.length = half)
    (hts : ts.length = half) (he : es[k]? = some e) (ht : ts[k]? = some t) :
    (butterflies es ts)[half + k]? = some (e.sub t) := by
  have hlen : (List.zipWith Cplx.add es ts).length = half := by rw [List.length_zipWith, hes, hts, min_self]
  rw [butterflies, List.getElem?_append_right (by omega), hlen, Nat.add_sub_cancel_left]
  exact List.getElem?_zipWith_eq_some.2 ⟨e, t, he, ht, rfl⟩

/-! ## Bins 0 and M/2 of the transform (40 R137) -/

theorem add_real {x y : Int} (hlo : -2 ^ 31 ≤ x + y) (hhi : x + y < 2 ^ 31) : Cplx.add ⟨x, 0⟩ ⟨y, 0⟩ = ⟨x + y, 0⟩ := by
  rw [Cplx.add, wrap32_of_range hlo hhi]
  rfl

theorem sub_real {x y : Int} (hlo : -2 ^ 31 ≤ x - y) (hhi : x - y < 2 ^ 31) : Cplx.sub ⟨x, 0⟩ ⟨y, 0⟩ = ⟨x - y, 0⟩ := by
  rw [Cplx.sub, wrap32_of_range hlo hhi]
  rfl

/-- The product of bin 0 is by W(0, M) = 1 (40 R137). -/
theorem twiddled_zero {half : Nat} {os : List Cplx} {o : Cplx} (hhalf : 0 < half) (ho : os[0]? = some o) :
    (twiddled half os)[0]? = some o := by
  rw [twiddled_getElem? hhalf ho, cmul_twiddle_zero]

/-- Bin 0 of the transform of samples is their sum. -/
theorem fft_getElem?_zero {l : Nat} {a : List Cplx} (hl : l ≤ 12) (ha : a.length = 2 ^ l) (hs : ∀ z ∈ a, z.IsSample) :
    (fft l a)[0]? = some ⟨sumRe a, 0⟩ := by
  induction l generalizing a with
  | zero =>
    obtain ⟨⟨re, im⟩, rfl⟩ := List.length_eq_one_iff.1 ha
    obtain rfl : im = 0 := (hs _ (List.mem_singleton_self _)).im
    simp [fft, sumRe]
  | succ l ih =>
    have hl' : l ≤ 12 := by omega
    have hsum := sumRe_bounds hl ha hs
    have he := ih hl' (length_evens ha) fun z hz => hs z (mem_of_mem_evens hz)
    have ho := ih hl' (length_odds ha) fun z hz => hs z (mem_of_mem_odds hz)
    rw [sumRe_eq_evens_add_odds] at hsum ⊢
    rw [fft, butterflies_getElem?_add he (twiddled_zero (Nat.two_pow_pos l) ho), add_real (by omega) (by omega)]

/-- Bin M/2 of the transform of M samples is their alternating sum. -/
theorem fft_getElem?_half {l : Nat} {a : List Cplx} (hl : l + 1 ≤ 12) (ha : a.length = 2 ^ (l + 1))
    (hs : ∀ z ∈ a, z.IsSample) : (fft (l + 1) a)[2 ^ l]? = some ⟨(a.map Cplx.re).alternatingSum, 0⟩ := by
  have hl' : l ≤ 12 := by omega
  have hse : ∀ z ∈ evens a, z.IsSample := fun z hz => hs z (mem_of_mem_evens hz)
  have hso : ∀ z ∈ odds a, z.IsSample := fun z hz => hs z (mem_of_mem_odds hz)
  have hsume := sumRe_bounds hl' (length_evens ha) hse
  have hsumo := sumRe_bounds hl' (length_odds ha) hso
  have he := fft_getElem?_zero hl' (length_evens ha) hse
  have ho := twiddled_zero (Nat.two_pow_pos l) (fft_getElem?_zero hl' (length_odds ha) hso)
  have hlen : (twiddled (2 ^ l) (fft l (odds a))).length = 2 ^ l := by
    rw [length_twiddled, length_fft l _ (length_odds ha), min_self]
  have hbin := butterflies_getElem?_sub (length_fft l _ (length_evens ha)) hlen he ho
  rw [sub_real (by omega) (by omega)] at hbin
  rw [alternatingSum_re_eq_evens_sub_odds]
  exact hbin

/-! ## The two bins of the spectrum -/

theorem length_fftInput (s : State) : s.fftInput.length = 2 ^ s.log2n.toNat := by
  rw [State.fftInput, List.length_map, List.length_range, State.windowLength]

/-- The FFT's input is made of samples (40 R131). -/
theorem isSample_of_mem_fftInput {s : State} {z : Cplx} (h : z ∈ s.fftInput) : z.IsSample := by
  obtain ⟨i, -, rfl⟩ := List.mem_map.1 h
  exact ⟨rfl, BitVec.le_toInt (s.xw i), BitVec.toInt_lt.le⟩

theorem fftInput_re (s : State) : s.fftInput.map Cplx.re = (List.range (2 ^ s.log2n.toNat)).map fun i => (s.xw i).toInt :=
  List.map_map

theorem spectrum_zero {s : State} (hs : LegalRegs s) :
    s.spectrum[0]? = some ⟨((List.range (2 ^ s.log2n.toNat)).map fun i => (s.xw i).toInt).sum, 0⟩ := by
  rw [← fftInput_re]
  exact fft_getElem?_zero hs.log2n_hi (length_fftInput s) fun _ => isSample_of_mem_fftInput

theorem spectrum_half {s : State} (hs : LegalRegs s) : s.spectrum[2 ^ s.log2n.toNat / 2]? =
    some ⟨((List.range (2 ^ s.log2n.toNat)).map fun i => (-1) ^ i * (s.xw i).toInt).sum, 0⟩ := by
  have hhi := hs.log2n_hi
  have hlen := length_fftInput s
  obtain ⟨l, hl⟩ := Nat.exists_eq_add_of_le' (le_trans (by decide : 1 ≤ 3) hs.log2n_lo)
  rw [← alternatingSum_map_range, ← fftInput_re, State.spectrum, hl, pow_succ, Nat.mul_div_cancel _ two_pos]
  rw [hl] at hhi hlen
  exact fft_getElem?_half hhi hlen fun _ => isSample_of_mem_fftInput

/-- Settles O41: bins 0 and N/2 of the spectrum, by induction on the size, as SPEC holds them. -/
theorem dcAndNyquistBinsAreExact : Obligations.DcAndNyquistBinsAreExact := by
  unfold Obligations.DcAndNyquistBinsAreExact
  intro s hs
  obtain ⟨hdcRe, hdcIm⟩ := completeFft_spec hs (spectrum_zero hs)
  obtain ⟨hnyquistRe, hnyquistIm⟩ := completeFft_spec hs (spectrum_half hs)
  exact ⟨hdcRe, BitVec.eq_of_toInt_eq hdcIm, hnyquistRe, BitVec.eq_of_toInt_eq hnyquistIm⟩

end Sys2Proof.Machine
end

section
/-!
PROOFS. The PEAKS command (41 R150 to R157): the frequency of a bin fits its register exactly, the ranking is strict, and the
published slots are the first of the ranking.
-/

namespace Sys2Proof.Machine

open Sys2Proof.Safety

/-! ## The frequency of a bin (41 R153) -/

/-- The shift by 12 - LOG2N is a division by N of the fixed-point value (41 R153). -/
theorem freqRaw_mul {s : State} (hs : LegalRegs s) (b : Nat) :
    s.freqRaw b * 2 ^ s.log2n.toNat = b * s.fs.toNat * 4096 := by
  rw [State.freqRaw, mul_assoc, Nat.pow_sub_mul_pow 2 hs.log2n_hi]

/-- A candidate bin lies below N/2 = 2^(LOG2N - 1), and FS has 18 bits (41 R153). -/
theorem freqRaw_lt {s : State} (hs : LegalRegs s) {b : Nat} (hb : b ≤ s.windowLength / 2 - 1) : s.freqRaw b < 2 ^ 29 := by
  obtain ⟨hN, -⟩ := windowLength_bounds hs
  have hscaled : s.freqRaw b * s.windowLength < 2 ^ 29 * s.windowLength :=
    calc s.freqRaw b * s.windowLength
      _ = b * s.fs.toNat * 4096 := freqRaw_mul hs b
      _ ≤ b * 2 ^ 18 * 4096 := by gcongr; exact s.fs.isLt.le
      _ < 2 ^ 29 * s.windowLength := by omega
  exact Nat.lt_of_mul_lt_mul_right hscaled

/-- Settles O47: the shift is exact, and the bound holds of every candidate bin. -/
theorem binFrequencyIsExact : Obligations.BinFrequencyIsExact := by
  unfold Obligations.BinFrequencyIsExact
  exact fun s b hs hb => ⟨freqRaw_mul hs b, freqRaw_lt hs hb⟩

/-! ## The ranking is strict (41 R152) -/

/-- The candidate ranks strictly before the other (41 R152). -/
def Candidate.RanksAbove (a b : Candidate) : Prop := b.mag < a.mag ∨ (b.mag = a.mag ∧ b.bin < a.bin)

/-- Two candidates of different bins are never of equal rank. -/
theorem Candidate.ranksAbove_of_ranksBefore {a b : Candidate} (h : a.ranksBefore b) (hne : a.bin ≠ b.bin) :
    a.RanksAbove b :=
  h.imp_right fun ⟨hmag, hbin⟩ => ⟨hmag, lt_of_le_of_ne hbin hne.symm⟩

theorem pairwise_ranksAbove_ranked (s : State) : s.ranked.Pairwise Candidate.RanksAbove :=
  (pairwise_ranked s).imp₂ (fun _ _ => Candidate.ranksAbove_of_ranksBefore) (List.pairwise_map.1 (nodup_ranked s))

theorem ranked_ranksAbove (s : State) {i k : Nat} (hik : i < k) (hk : k < s.ranked.length) :
    s.ranked[i].RanksAbove s.ranked[k] :=
  List.pairwise_iff_getElem.1 (pairwise_ranksAbove_ranked s) i k (hik.trans hk) hk hik

theorem mem_ranked (s : State) (c : Candidate) :
    c ∈ s.ranked ↔ 1 ≤ c.bin ∧ c.bin ≤ s.windowLength / 2 - 1 ∧ c.mag = s.sqMag c.bin :=
  (ranked_perm s).mem_iff.trans (mem_candidates s c)

/-! ## The published slots (41 R154) -/

/-- The slot holds the candidate, with the frequency of its bin (41 R154). -/
structure PeakSlot.Holds (p : PeakSlot) (s : State) (c : Candidate) : Prop where
  bin : p.bin.toNat = c.bin
  freq : p.freq.toNat = s.freqRaw c.bin
  mag : p.mag.toNat = c.mag

/-- A slot that holds a candidate shows what the spec's rules give for its bin (41 R151, R153). -/
theorem PeakSlot.Holds.exact_of_mem_ranked {p : PeakSlot} {s : State} {c : Candidate} (hp : p.Holds s c)
    (hc : c ∈ s.ranked) :
    1 ≤ p.bin.toNat ∧ p.bin.toNat ≤ s.windowLength / 2 - 1 ∧ (p.mag.toNat : Int) = exactSqMag s p.bin.toNat ∧
      p.freq.toNat = s.freqRaw p.bin.toNat := by
  obtain ⟨hlo, hhi, hsq⟩ := (mem_ranked s c).1 hc
  rw [hp.bin, hp.freq, hp.mag, hsq, sqMag_eq_exact]
  exact ⟨hlo, hhi, rfl, rfl⟩

/-- Slots are ranked as the candidates they hold. -/
theorem PeakSlot.Holds.lt_of_ranksAbove {p q : PeakSlot} {s : State} {c d : Candidate} (hp : p.Holds s c)
    (hq : q.Holds s d) (h : c.RanksAbove d) : q.mag < p.mag ∨ (q.mag = p.mag ∧ q.bin < p.bin) := by
  rwa [BitVec.lt_def, BitVec.lt_def, ← BitVec.toNat_inj, hp.mag, hq.mag, hp.bin, hq.bin]

theorem completePeaks_peakCnt {s : State} (hs : LegalRegs s) : (completePeaks s).peakCnt.toNat = s.slotCount :=
  Nat.mod_eq_of_lt (lt_of_le_of_lt (slotCount_le hs) (by decide))

theorem slotCount_le_ranked (s : State) : s.slotCount ≤ s.ranked.length := by
  rw [length_ranked]
  exact Nat.min_le_right ..

/-- The fields of a slot are wide enough for every candidate (41 R151, R153). -/
theorem completePeaks_holds {s : State} (hs : LegalRegs s) {j : Fin 8} (hj : j.val < s.slotCount) :
    ((completePeaks s).peaks.get j).Holds s (s.ranked[j.val]'(hj.trans_le (slotCount_le_ranked s))) := by
  obtain ⟨hl, hslot⟩ := slot_lt s j.val hj
  obtain ⟨-, hbin, hmag⟩ := (mem_ranked s _).1 (List.getElem_mem hl)
  obtain ⟨-, hN⟩ := windowLength_bounds hs
  have hfreq := freqRaw_lt hs hbin
  simp only [completePeaks, vec8_get, hslot]
  refine ⟨Nat.mod_eq_of_lt ?_, Nat.mod_eq_of_lt ?_, Nat.mod_eq_of_lt ?_⟩
  · omega
  · omega
  · rw [hmag]
    exact sqMag_lt s _

theorem completePeaks_empty {s : State} {j : Fin 8} (hj : s.slotCount ≤ j.val) :
    (completePeaks s).peaks.get j = PeakSlot.zero := by
  simp only [completePeaks, vec8_get, State.slot, if_neg hj.not_gt]

theorem completePeaks_peaksOrdered {s : State} (hs : LegalRegs s) : PeaksOrdered (completePeaks s) where
  empty := by
    rw [completePeaks_peakCnt hs]
    exact fun j => completePeaks_empty
  ordered := by
    rw [completePeaks_peakCnt hs]
    intro j k hjk hk
    exact (completePeaks_holds hs (hjk.trans hk)).lt_of_ranksAbove (completePeaks_holds hs hk)
      (ranked_ranksAbove s hjk _)

/-- Settles O45: the write is accepted, and the ENGINE's turn writes the slots and DONE. -/
theorem peaksCommandPublishesSlots : Obligations.PeaksCommandPublishesSlots := by
  unfold Obligations.PeaksCommandPublishesSlots
  intro s hs hidle
  have hstart : exec .peaks s = .next ({ s with eng := .busy .peaks }.respond .ok) :=
    congrArg Host.Outcome.next (startAnalysis_of_idle .peaks hidle)
  have hcnt := completePeaks_peakCnt hs
  refine ⟨_, _, hstart, rfl, rfl, ⟨hidle.symm, rfl⟩, ⟨rfl, rfl, rfl, rfl⟩,
    ⟨rfl, rfl, rfl, rfl, rfl, rfl, rfl, rfl, rfl, rfl, rfl⟩, ⟨rfl, rfl, rfl, rfl, rfl⟩, ⟨rfl, rfl, rfl, rfl⟩,
    rfl, fun _ => rfl, ⟨rfl, rfl⟩, hcnt, fun j => ⟨fun hj => ?_, fun hj => ?_⟩⟩
  · exact (completePeaks_holds hs (hj.trans_eq hcnt)).exact_of_mem_ranked (List.getElem_mem _)
  · exact completePeaks_empty (hcnt.symm.trans_le hj)

/-- The candidate of a bin in no slot stands in the ranking beyond the candidates of the slots. -/
theorem exists_ranked_of_unslotted {s : State} (hs : LegalRegs s) {b : Nat} (hlo : 1 ≤ b)
    (hhi : b ≤ s.windowLength / 2 - 1)
    (hout : ∀ j : Fin 8, j.val < s.slotCount → ((completePeaks s).peaks.get j).bin.toNat ≠ b) :
    ∃ i, ∃ hi : i < s.ranked.length, s.slotCount ≤ i ∧ s.ranked[i] = ⟨s.sqMag b, b⟩ := by
  obtain ⟨i, hi, hb⟩ := List.mem_iff_getElem.1 ((mem_ranked s ⟨s.sqMag b, b⟩).2 ⟨hlo, hhi, rfl⟩)
  refine ⟨i, hi, le_of_not_gt fun hin => ?_, hb⟩
  have hslot := completePeaks_holds hs (j := ⟨i, hin.trans_le (slotCount_le hs)⟩) hin
  exact hout _ hin (hslot.bin.trans (congrArg Candidate.bin hb))

/-- Settles O46: a slot's candidate stands before the candidate of a bin in no slot, and the ranking is strict. -/
theorem peakSlotsAreTheStrongest : Obligations.PeakSlotsAreTheStrongest := by
  unfold Obligations.PeakSlotsAreTheStrongest
  rintro s u hs rfl
  refine ⟨completePeaks_peaksOrdered hs, fun b hlo hhi hout j hj => ?_⟩
  rw [completePeaks_peakCnt hs] at hout hj
  obtain ⟨i, hi, hcut, hb⟩ := exists_ranked_of_unslotted hs hlo hhi hout
  have hslot := completePeaks_holds hs hj
  have habove := ranked_ranksAbove s (hj.trans_le hcut) hi
  rw [← sqMag_eq_exact, hslot.mag, hslot.bin, Nat.cast_lt, Nat.cast_inj]
  rwa [hb] at habove

/-! ## Every step -/

theorem peaksOrdered_of_samePeaks {s t : State} (hs : PeaksOrdered s) (h : SamePeaks s t) : PeaksOrdered t where
  empty := by
    rw [h.cnt, h.slots]
    exact hs.empty
  ordered := by
    rw [h.cnt, h.slots]
    exact hs.ordered

theorem completionOf_peaksOrdered (c : Analysis) {s : State} (hr : LegalRegs s) (hs : PeaksOrdered s) :
    PeaksOrdered (completionOf c s) := by
  cases c with
  | fft => exact peaksOrdered_of_samePeaks hs ⟨rfl, rfl⟩
  | peaks => exact completePeaks_peaksOrdered hr
  | classify => exact peaksOrdered_of_samePeaks hs ⟨rfl, rfl⟩
  | decode =>
    rcases completeDecode_cases s with ⟨-, e⟩ | ⟨-, e⟩ <;> rw [completionOf, e]
    · exact peaksOrdered_of_samePeaks hs ⟨rfl, rfl⟩
    · exact peaksOrdered_of_samePeaks (completePeaks_peaksOrdered (completionOf_legalRegs .fft hr)) ⟨rfl, rfl⟩

theorem Effect.peaksOrdered {s u : State} {e : Input} (h : Effect s e u) (hr : LegalRegs s) (hs : PeaksOrdered s) :
    PeaksOrdered u := by
  cases h with
  | complete c => exact completionOf_peaksOrdered c hr hs
  | reset => exact peaksOrdered_of_samePeaks reset_peaksOrdered ⟨rfl, rfl⟩
  | store r v =>
    obtain ⟨-, -, hpeaks, -, -, -⟩ := writeReg_frame s v r
    exact peaksOrdered_of_samePeaks hs hpeaks
  | _ => exact peaksOrdered_of_samePeaks hs ⟨rfl, rfl⟩

/-- Settles O12: of the effects only the completions of PEAKS and DECODE publish slots, and reset empties them. -/
theorem stepKeepsPeaksOrdered : Obligations.StepKeepsPeaksOrdered := by
  unfold Obligations.StepKeepsPeaksOrdered
  intro s t hr hs h
  obtain ⟨u, hu, htu⟩ := step_effect h
  exact peaksOrdered_of_samePeaks (hu.peaksOrdered hr hs) (samePeaks_of_contents htu)

end Sys2Proof.Machine
end

section
/-!
PROOFS. The CLASSIFY command (42 R165 to R172): the scan of a position finds the first nearest of its tests and keeps it when it
is strictly within tolerance.
-/

namespace Sys2Proof.Machine

open Sys2Proof.Safety

/-! ## The tests of a scan (42 R167, R168) -/

/-- The test of a frequency against a tone of the position. -/
def toneTest (tone : Bool → Word) (f : Word) (v : Bool) : Match := ⟨toneDiff f (tone v), v, f⟩

@[simp] theorem toneTest_freq (tone : Bool → Word) (f : Word) (v : Bool) : (toneTest tone f v).freq = f := rfl

@[simp] theorem toneTest_bit (tone : Bool → Word) (f : Word) (v : Bool) : (toneTest tone f v).bit = v := rfl

theorem toneTest_diff (tone : Bool → Word) (f : Word) (v : Bool) : ((toneTest tone f v).diff : Int) = distance f (tone v) :=
  toneDiff_eq_distance f (tone v)

theorem toneTest_inj {tone : Bool → Word} {f g : Word} {v w : Bool} :
    toneTest tone f v = toneTest tone g w ↔ f = g ∧ v = w := by
  refine ⟨fun h => ⟨congrArg Match.freq h, congrArg Match.bit h⟩, ?_⟩
  rintro ⟨rfl, rfl⟩
  rfl

/-- The difference is strictly within tolerance (42 R168). -/
def Match.within (tol : Word) (m : Match) : Bool := decide (m.diff < tol.toNat)

theorem toneTest_within {tone : Bool → Word} {tol f : Word} {v : Bool} :
    (toneTest tone f v).within tol = true ↔ distance f (tone v) < tol.toNat := by
  rw [Match.within, decide_eq_true_iff, ← toneTest_diff, Nat.cast_lt]

theorem Match.within_of_diff_le {tol : Word} {m n : Match} (hn : n.within tol = true) (h : m.diff ≤ n.diff) :
    m.within tol = true :=
  decide_eq_true (h.trans_lt (of_decide_eq_true hn))

/-- The tests of a scan in their order: for each frequency the low tone, then the high tone. -/
def toneTests (tone : Bool → Word) (l : List Word) : List Match :=
  l.flatMap fun f => [toneTest tone f false, toneTest tone f true]

theorem toneTests_cons (tone : Bool → Word) (f : Word) (l : List Word) :
    toneTests tone (f :: l) = toneTest tone f false :: toneTest tone f true :: toneTests tone l := rfl

theorem mem_toneTests {tone : Bool → Word} {l : List Word} {m : Match} :
    m ∈ toneTests tone l ↔ ∃ f ∈ l, ∃ v, m = toneTest tone f v := by
  simp only [toneTests, List.mem_flatMap, List.mem_cons, List.not_mem_nil, or_false, Bool.exists_bool]

/-! ## The scan as a search for the first minimum (42 R167) -/

/-- A test replaces the best only by a strictly smaller difference, so the tolerance can be applied after the comparison. -/
theorem offerTone_filter_within (tol : Word) (v : Bool) (t f : Word) (best : Option Match) :
    offerTone tol v t f (best.filter (Match.within tol)) =
      (List.argAux (fun a b => a.diff < b.diff) best ⟨toneDiff f t, v, f⟩).filter (Match.within tol) := by
  cases best with
  | none => simp [offerTone, List.argAux, Option.filter, Match.within]
  | some m =>
    by_cases hm : m.diff < tol.toNat
    · by_cases hd : toneDiff f t < m.diff
      · simp [offerTone, List.argAux, Option.filter, Match.within, hm, hd, hd.trans hm]
      · simp [offerTone, List.argAux, Option.filter, Match.within, hm, hd]
    · by_cases hd : toneDiff f t < m.diff
      · simp [offerTone, List.argAux, Option.filter, Match.within, hm, hd]
      · have hout : ¬ toneDiff f t < tol.toNat := fun h => hm ((not_lt.1 hd).trans_lt h)
        simp [offerTone, List.argAux, Option.filter, Match.within, hm, hd, hout]

/-- The scan from a best that was filtered by the tolerance is the search for the first minimum, filtered at its end. -/
theorem foldl_offerFreq (tol : Word) (tone : Bool → Word) (l : List Word) (best : Option Match) :
    l.foldl (offerFreq tol (tone false) (tone true)) (best.filter (Match.within tol)) =
      ((toneTests tone l).foldl (List.argAux fun a b => a.diff < b.diff) best).filter (Match.within tol) := by
  induction l generalizing best with
  | nil => rfl
  | cons f l ih =>
    rw [toneTests_cons, List.foldl_cons, List.foldl_cons, List.foldl_cons, offerFreq, offerTone_filter_within,
      offerTone_filter_within, ih]
    rfl

/-- The tests of position i. -/
def State.positionTests (s : State) (i : Fin 8) : List Match := toneTests (s.tone i) s.detected

/-- A position's match is the first nearest of its tests, if that is within tolerance. -/
theorem classifyPosition_eq (s : State) (i : Fin 8) :
    s.classifyPosition i = ((s.positionTests i).argmin Match.diff).filter (Match.within s.tol) :=
  foldl_offerFreq s.tol (s.tone i) s.detected none

theorem mem_positionTests {s : State} {i : Fin 8} {m : Match} :
    m ∈ s.positionTests i ↔ ∃ f, Detected s f ∧ ∃ v, m = toneTest (s.tone i) f v := by
  simp only [State.positionTests, mem_toneTests, mem_detected]

theorem toneTest_mem_positionTests {s : State} {f : Word} (hf : Detected s f) (i : Fin 8) (v : Bool) :
    toneTest (s.tone i) f v ∈ s.positionTests i :=
  mem_positionTests.2 ⟨f, hf, v, rfl⟩

/-! ## The order of the tests (42 R166) -/

theorem pairwise_detected (s : State) : s.detected.Pairwise fun a b => a.toNat ≤ b.toNat := by
  have : Std.Total fun a b : Word => a.toNat ≤ b.toNat := ⟨fun a b => Nat.le_total a.toNat b.toNat⟩
  have : IsTrans Word fun a b => a.toNat ≤ b.toNat := ⟨fun _ _ _ => Nat.le_trans⟩
  exact List.pairwise_insertionSort _ _

/-- The two tests of the first frequency come first, the low tone before the high tone. -/
theorem idxOf_toneTests_cons_self (tone : Bool → Word) (f : Word) (l : List Word) (v : Bool) :
    (toneTests tone (f :: l)).idxOf (toneTest tone f v) = v.toNat := by
  cases v <;> simp [toneTests_cons, toneTest_inj]

theorem idxOf_toneTests_cons_ne (tone : Bool → Word) {x f : Word} (h : x ≠ f) (l : List Word) (v : Bool) :
    (toneTests tone (x :: l)).idxOf (toneTest tone f v) = (toneTests tone l).idxOf (toneTest tone f v) + 2 := by
  simp [toneTests_cons, toneTest_inj, h]

/-- In a scan of ascending frequencies a test that comes first is of the lower frequency, or of the same one and then not of the
high tone against the low tone. -/
theorem toneTest_order_of_idxOf_le {tone : Bool → Word} {l : List Word} (hl : l.Pairwise fun a b => a.toNat ≤ b.toNat)
    {f g : Word} {v w : Bool} (hg : g ∈ l)
    (hle : (toneTests tone l).idxOf (toneTest tone f v) ≤ (toneTests tone l).idxOf (toneTest tone g w)) :
    f.toNat < g.toNat ∨ (f = g ∧ (v = false ∨ w = true)) := by
  induction l with
  | nil => cases hg
  | cons x l ih =>
    obtain ⟨hx, hl⟩ := List.pairwise_cons.1 hl
    by_cases hxf : x = f <;> by_cases hxg : x = g
    · subst hxf hxg
      rw [idxOf_toneTests_cons_self, idxOf_toneTests_cons_self] at hle
      refine .inr ⟨rfl, ?_⟩
      cases v with
      | false => exact .inl rfl
      | true => exact .inr (Bool.toNat_eq_one.1 (le_antisymm w.toNat_le hle))
    · subst hxf
      have hgl : g ∈ l := List.mem_of_ne_of_mem (Ne.symm hxg) hg
      exact .inl (lt_of_le_of_ne (hx g hgl) (hxg ∘ BitVec.eq_of_toNat_eq))
    · subst hxg
      rw [idxOf_toneTests_cons_self, idxOf_toneTests_cons_ne tone hxf] at hle
      have := w.toNat_le
      omega
    · rw [idxOf_toneTests_cons_ne tone hxf, idxOf_toneTests_cons_ne tone hxg, Nat.add_le_add_iff_right] at hle
      exact ih hl (List.mem_of_ne_of_mem (Ne.symm hxg) hg) hle

/-! ## The match of a position (42 R166 to R169) -/

/-- A position is matched exactly when one of its tests is within tolerance: then the nearest is. -/
theorem classifyPosition_isSome {s : State} {i : Fin 8} :
    (s.classifyPosition i).isSome = true ↔ ∃ f, Detected s f ∧ ∃ v, distance f (s.tone i v) < s.tol.toNat := by
  rw [classifyPosition_eq, Option.isSome_filter, Option.any_eq_true]
  constructor
  · rintro ⟨m, hm, hin⟩
    obtain ⟨f, hf, v, rfl⟩ := mem_positionTests.1 (List.argmin_mem hm)
    exact ⟨f, hf, v, toneTest_within.1 hin⟩
  · rintro ⟨f, hf, v, hin⟩
    have htest := toneTest_mem_positionTests hf i v
    have hne : (s.positionTests i).argmin Match.diff ≠ none := mt List.argmin_eq_none.1 (List.ne_nil_of_mem htest)
    obtain ⟨m, hm⟩ := Option.ne_none_iff_exists'.1 hne
    exact ⟨m, hm, Match.within_of_diff_le (toneTest_within.2 hin) (List.le_of_mem_argmin htest hm)⟩

/-- The match of a position is the first nearest of its tests (42 R167). -/
theorem classifyPosition_nearest {s : State} {i : Fin 8} {m : Match} (h : s.classifyPosition i = some m) :
    Detected s m.freq ∧ distance m.freq (s.tone i m.bit) < s.tol.toNat ∧
    ∀ (g : Word) (w : Bool), Detected s g →
      distance m.freq (s.tone i m.bit) < distance g (s.tone i w) ∨
      (distance m.freq (s.tone i m.bit) = distance g (s.tone i w) ∧
        (m.freq.toNat < g.toNat ∨ (m.freq = g ∧ (m.bit = false ∨ w = true)))) := by
  rw [classifyPosition_eq, Option.filter_eq_some_iff] at h
  obtain ⟨hmin, hin⟩ := h
  obtain ⟨f, hf, v, rfl⟩ := mem_positionTests.1 (List.argmin_mem hmin)
  refine ⟨hf, toneTest_within.1 hin, fun g w hg => ?_⟩
  have htest := toneTest_mem_positionTests hg i w
  rw [toneTest_freq, toneTest_bit, ← toneTest_diff, ← toneTest_diff, Nat.cast_lt, Nat.cast_inj]
  refine (List.le_of_mem_argmin htest hmin).lt_or_eq.imp_right fun heq => ⟨heq, ?_⟩
  exact toneTest_order_of_idxOf_le (pairwise_detected s) ((mem_detected s g).2 hg) (List.index_of_argmin hmin htest heq.ge)

/-! ## The published result (42 R170, R172) -/

theorem completeClassify_matched (s : State) (i : Fin 8) :
    (completeClassify s).resMatched.getLsbD i.val = (s.classifyPosition i).isSome :=
  matchedBits_getLsbD (fun j => (s.classifyPosition j).isSome) i

theorem completeClassify_bit (s : State) (i : Fin 8) :
    (completeClassify s).resByte.getLsbD (7 - i.val) = matchBit (s.classifyPosition i) :=
  byteOfBits_getLsbD (fun j => matchBit (s.classifyPosition j)) i

theorem completeClassify_matchFreq (s : State) (i : Fin 8) :
    (completeClassify s).matchFreq.get i = matchFreqOf (s.classifyPosition i) :=
  vec8_get (fun j => matchFreqOf (s.classifyPosition j)) i

/-- MATCHED tells whether a detected frequency is strictly within tolerance of a tone (42 R168). -/
theorem completeClassify_matched_iff (s : State) (i : Fin 8) :
    (completeClassify s).resMatched.getLsbD i.val = true ↔
      ∃ f, Detected s f ∧ (distance f (s.toneLo.get i) < s.tol.toNat ∨ distance f (s.toneHi.get i) < s.tol.toNat) := by
  rw [completeClassify_matched, classifyPosition_isSome]
  simp only [Bool.exists_bool]
  rfl

/-- A position that is not matched has bit 0 and frequency 0 (42 R169). -/
theorem completeClassify_unmatched {s : State} {i : Fin 8} (h : (completeClassify s).resMatched.getLsbD i.val = false) :
    (completeClassify s).resByte.getLsbD (7 - i.val) = false ∧ (completeClassify s).matchFreq.get i = 0#32 := by
  rw [completeClassify_matched, Option.isSome_eq_false_iff, Option.isNone_iff_eq_none] at h
  rw [completeClassify_bit, completeClassify_matchFreq, h]
  exact ⟨rfl, rfl⟩

/-- Settles O48: the write is accepted, and the ENGINE's turn writes RESULT, MATCH_FREQ and DONE. -/
theorem classifyCommandPublishesResult : Obligations.ClassifyCommandPublishesResult := by
  unfold Obligations.ClassifyCommandPublishesResult
  intro s hidle
  have hstart : exec .classify s = .next ({ s with eng := .busy .classify }.respond .ok) :=
    congrArg Host.Outcome.next (startAnalysis_of_idle .classify hidle)
  refine ⟨_, _, hstart, rfl, rfl, ⟨hidle.symm, rfl⟩, ⟨rfl, rfl, rfl, rfl⟩,
    ⟨rfl, rfl, rfl, rfl, rfl, rfl, rfl, rfl, rfl, rfl, rfl⟩, ⟨rfl, rfl⟩, ⟨rfl, rfl, rfl, rfl⟩,
    rfl, fun _ => rfl, ⟨rfl, rfl⟩, rfl, rfl, fun i => ⟨?_, fun hout => ?_⟩⟩
  · exact completeClassify_matched_iff s i
  · exact completeClassify_unmatched (s := s) hout

/-- Settles O49: the published bit and frequency are those of the first nearest test. -/
theorem classifierPicksNearestTone : Obligations.ClassifierPicksNearestTone := by
  unfold Obligations.ClassifierPicksNearestTone
  rintro s u i rfl hmatched
  rw [completeClassify_matched] at hmatched
  obtain ⟨m, hm⟩ := Option.isSome_iff_exists.1 hmatched
  rw [completeClassify_bit, completeClassify_matchFreq, hm]
  exact classifyPosition_nearest hm

end Sys2Proof.Machine
end

section
/-!
PROOFS. The statements about the synthesizer: its commands, its samples, and the writers of SYN_ACTIVE (43 R185 to R199).
-/

namespace Sys2Proof.Machine

open Sys2Proof.Safety

/-! ## SYN_ACTIVE (43 R186) -/

/-- An effect that changes SYN_ACTIVE is SYN_START setting it, or SYN_STOP or a reset clearing it. -/
theorem Effect.synActive_writers {s u : State} {e : Input} (h : Effect s e u) (hne : u.synActive ≠ s.synActive) :
    (u.synActive = true ∧ e = .host (encode .synStart)) ∨
    (u.synActive = false ∧ (e = .host (encode .synStop) ∨ IsReset e)) := by
  cases h with
  | keep => exact absurd rfl hne
  | complete c =>
    obtain ⟨-, -, -, hsynth, -⟩ := completionOf_frame c s
    exact absurd hsynth.active hne
  | reset isReset => exact .inr ⟨rfl, .inr isReset⟩
  | winClear => exact absurd rfl hne
  | winPush => exact absurd rfl hne
  | synStart => exact .inl ⟨rfl, rfl⟩
  | synStop => exact .inr ⟨rfl, .inl rfl⟩
  | synRead => exact absurd rfl hne
  | store r v =>
    obtain ⟨-, -, -, -, hsynth, -⟩ := writeReg_frame s v r
    exact absurd hsynth.active hne

/-- Settles O15, effect by effect. -/
theorem synActiveChangesOnlyByCommand : Obligations.SynActiveChangesOnlyByCommand := by
  unfold Obligations.SynActiveChangesOnlyByCommand
  intro s t h
  obtain ⟨u, hu, htu⟩ := step_effect h
  rw [(sameSynth_of_contents htu).active]
  constructor
  · intro hs ht
    rcases hu.synActive_writers (by simp [hs, ht]) with ⟨-, hmove⟩ | ⟨hclear, -⟩
    · exact hmove
    · simp [ht] at hclear
  · intro hs ht
    rcases hu.synActive_writers (by simp [hs, ht]) with ⟨hset, -⟩ | ⟨-, hmove⟩
    · simp [ht] at hset
    · exact hmove

/-! ## What the synthesizer's instructions leave alone -/

/-- SYN_ACTIVE, SYN_POS, the accumulators and the bus answer are apart from all else the core holds. -/
theorem synth_frame (s : State) {t : State} {active : Bool} {pos : Word} {lo hi : Vector Word 8} {r : Response}
    (ht : t = { s with synActive := active, synPos := pos, accLo := lo, accHi := hi, response := r }) :
    SameEngine s t ∧ SameErrors s t ∧ SameConfig s t ∧ SamePeaks s t ∧ SameResult s t ∧ t.winCount = s.winCount ∧
    SameRam s t ∧ SameOutside s t := by
  subst ht
  exact ⟨⟨rfl, rfl⟩, ⟨rfl, rfl, rfl, rfl⟩, ⟨rfl, rfl, rfl, rfl, rfl, rfl, rfl, rfl, rfl, rfl, rfl⟩, ⟨rfl, rfl⟩,
    ⟨rfl, rfl, rfl, rfl, rfl⟩, rfl, fun _ => rfl, ⟨rfl, rfl⟩⟩

/-! ## SYN_DONE (43 R196) -/

theorem synDone_iff (s : State) : s.synDone = true ↔ s.symLen.toNat * s.synLen.toNat ≤ s.synPos.toNat :=
  decide_eq_true_iff

/-- An empty message is done at every position (43 R199). -/
theorem synDone_of_synLen_zero {s : State} (h : s.synLen = 0) : s.synDone = true :=
  (synDone_iff s).2 (by simp [h])

/-- At sample 0 only an empty message is done (43 R185). -/
theorem synDone_iff_of_synPos_zero {s : State} (hpos : s.synPos = 0#32) (hsym : 1 ≤ s.symLen.toNat) :
    s.synDone = true ↔ s.synLen = 0 := by
  rw [synDone_iff, hpos, BitVec.toNat_zero, Nat.le_zero, Nat.mul_eq_zero, or_iff_right (by omega)]
  exact BitVec.toNat_inj (y := 0)

/-! ## SYN_START and SYN_STOP (43 R185, R187) -/

/-- Settles O53: the restart writes the synthesizer's own state only, and nothing is played at sample 0. -/
theorem synStartRestartsSynthesis : Obligations.SynStartRestartsSynthesis := by
  unfold Obligations.SynStartRestartsSynthesis
  intro s
  refine ⟨_, rfl, rfl, rfl, rfl, fun i v => ?_, fun hsym => ?_, synth_frame s rfl⟩
  · cases v <;> exact replicate8_get _ i
  · exact synDone_iff_of_synPos_zero rfl hsym

/-- Settles O54: SYN_STOP writes SYN_ACTIVE and the bus answer only. -/
theorem synStopKeepsPosition : Obligations.SynStopKeepsPosition := by
  unfold Obligations.SynStopKeepsPosition
  exact fun s => ⟨_, rfl, rfl, rfl, rfl, rfl, rfl, rfl, synth_frame s rfl⟩

/-! ## The sample (43 R189 to R194) -/

/-- acc(n) sums over the eight positions the sine of the oscillator that the byte selects (43 R191, R192). -/
theorem toneSum_eq_sum (s : State) :
    s.toneSum = ∑ i : Fin 8, sine ((s.acc i (s.synByte.getLsbD (7 - i.val))).toNat / 2 ^ 20) := by
  rw [State.toneSum, ← Fin.sum_univ_def]
  simp only [State.oscillator, messageBit, BitVec.toNat_ushiftRight, Nat.shiftRight_eq_div_pow]

/-- Eight sines of magnitude at most 2^15 (43 R193). -/
theorem toneSum_bounds (s : State) : -262144 ≤ s.toneSum ∧ s.toneSum ≤ 262144 := by
  rw [toneSum_eq_sum]
  constructor
  · exact le_trans (by decide) (Finset.card_nsmul_le_sum .univ _ (-32768) fun _ _ => (sine_range _).1)
  · exact le_trans (Finset.sum_le_card_nsmul .univ _ 32768 fun _ _ => (sine_range _).2) (by decide)

/-- The magnitude of a sample: 2^18 * 2^15 / 2^33 is 1, so full scale is 32767 (43 R194). -/
theorem natAbs_quantise_le {acc : Int} {ampl : Nat} (hacc : acc.natAbs ≤ 2 ^ 18) (hampl : ampl ≤ 2 ^ 15) :
    (quantise acc ampl).natAbs ≤ 32767 := by
  rw [quantise, Int.natAbs_tdiv, Int.natAbs_mul, Int.natAbs_mul]
  refine Nat.div_le_of_le_mul ?_
  calc acc.natAbs * ampl * 32767 ≤ 2 ^ 18 * 2 ^ 15 * 32767 := by gcongr
    _ = 2 ^ 33 * 32767 := by norm_num

theorem quantise_bounds {acc : Int} {ampl : Nat} (hlo : -262144 ≤ acc) (hhi : acc ≤ 262144) (hampl : ampl ≤ 0x8000) :
    -32767 ≤ quantise acc ampl ∧ quantise acc ampl ≤ 32767 := by
  have := natAbs_quantise_le (acc := acc) (by omega) hampl
  omega

/-- A sample of 16 bits is read back as it was formed (30 R118). -/
theorem toInt_signExtend_sample {y : Int} (hlo : -32767 ≤ y) (hhi : y ≤ 32767) :
    ((BitVec.ofInt 16 y).signExtend 32).toInt = y := by
  rw [BitVec.toInt_signExtend_of_le (by decide)]
  exact BitVec.toInt_ofInt_eq_self (by decide) (by omega) (by omega)

/-- Settles O58: the sum is that of eight ROM values, and its scaling by AMPL cannot exceed full scale. -/
theorem synthSampleNeverWraps : Obligations.SynthSampleNeverWraps := by
  unfold Obligations.SynthSampleNeverWraps
  refine ⟨toneSum_bounds, fun acc ampl hlo hhi hampl => ?_⟩
  obtain ⟨hmin, hmax⟩ := quantise_bounds hlo hhi hampl
  exact ⟨hmin, hmax, toInt_signExtend_sample hmin hmax⟩

/-- From SYM_LEN * SYN_LEN on, the byte index is clamped to the last byte (43 R189). -/
theorem byteIndex_of_past_end {s : State} {n : Nat} (hsym : 1 ≤ s.symLen.toNat) (hn : s.symLen.toNat * s.synLen.toNat ≤ n) :
    s.byteIndex n = s.synLen.toNat - 1 := by
  have hdiv : s.synLen.toNat ≤ n / s.symLen.toNat := (Nat.le_div_iff_mul_le hsym).2 (by rwa [Nat.mul_comm])
  exact min_eq_right (by omega)

/-- Settles O59: the division already reaches SYN_LEN, so the clamp picks the last byte. -/
theorem synthesisPastEndRepeatsLastByte : Obligations.SynthesisPastEndRepeatsLastByte := by
  unfold Obligations.SynthesisPastEndRepeatsLastByte
  intro s hs _ hend
  refine ⟨?_, (synDone_iff s).2 hend⟩
  rw [State.synByte, byteIndex_of_past_end hs.symLen_lo hend]

/-! ## SYN_READ (43 R195) -/

theorem exec_synRead_active {s : State} (h : s.synActive = true) :
    exec .synRead s = .next (s.advanceSynth.respond (.data ((BitVec.ofInt 16 s.synSample).signExtend 32))) :=
  if_pos h

theorem exec_synRead_inactive {s : State} (h : s.synActive = false) : exec .synRead s = .next (s.respond (.data 0)) :=
  if_neg (by simp [h])

theorem advanceSynth_synPos_toNat (s : State) : s.advanceSynth.synPos.toNat = (s.synPos.toNat + 1) % 2 ^ 32 :=
  BitVec.toNat_add ..

/-- One sample on, an accumulator has grown by the tuning word of its tone register (43 R190, R195). -/
theorem acc_advanceSynth_of_tone (s : State) (i : Fin 8) (v : Bool) (F : Word)
    (hF : F = (if v then s.toneHi.get i else s.toneLo.get i)) :
    s.advanceSynth.acc i v = s.acc i v + BitVec.ofNat 32 ((F.toNat * 2 ^ 21 + s.fs.toNat) / (2 * s.fs.toNat)) := by
  subst hF
  exact acc_advanceSynth s i v

/-- For a legal AMPL the word of a sample is the sample itself (43 R194, R195). -/
theorem synSample_toInt {s : State} (hlen : s.synLen ≠ 0) (hampl : s.ampl.toNat ≤ 0x8000) :
    ((BitVec.ofInt 16 s.synSample).signExtend 32).toInt = quantise s.toneSum s.ampl.toNat := by
  obtain ⟨hlo, hhi⟩ := toneSum_bounds s
  obtain ⟨hmin, hmax⟩ := quantise_bounds hlo hhi hampl
  rw [State.synSample, if_neg hlen, toInt_signExtend_sample hmin hmax]

/-- Settles O55: the sample fits 16 bits, so the word on the bus is the sample. -/
theorem synReadReturnsNextSample : Obligations.SynReadReturnsNextSample := by
  unfold Obligations.SynReadReturnsNextSample
  intro s hactive hlen hampl
  refine ⟨_, _, exec_synRead_active hactive, rfl, ?_, advanceSynth_synPos_toNat s, hactive, acc_advanceSynth_of_tone s,
    synth_frame s rfl⟩
  rw [synSample_toInt hlen hampl, toneSum_eq_sum]
  rfl

/-- Settles O56: only the bus answers. -/
theorem synReadInactiveReturnsZero : Obligations.SynReadInactiveReturnsZero := by
  unfold Obligations.SynReadInactiveReturnsZero
  exact fun s h => ⟨_, exec_synRead_inactive h, rfl, ⟨rfl, rfl⟩, ⟨rfl, rfl, rfl, rfl⟩, sameData_respond s _⟩

/-- Settles O57: SYM_LEN * 0 samples are done at every SYN_POS, and the read advances as every active one does. -/
theorem emptyMessageIsSilence : Obligations.EmptyMessageIsSilence := by
  unfold Obligations.EmptyMessageIsSilence
  intro s hactive hempty
  have hsilent : s.synSample = 0 := if_pos hempty
  refine ⟨synDone_of_synLen_zero hempty, _, exec_synRead_active hactive, ?_, synDone_of_synLen_zero hempty,
    advanceSynth_synPos_toNat s, hactive, acc_advanceSynth_of_tone s, synth_frame s rfl⟩
  rw [hsilent]
  rfl

end Sys2Proof.Machine
end

section
/-!
PROOFS. The statements about the window and DECODE (44 R211 to R222): what the window's writers leave alone, that a completion
does not depend on the engine's bookkeeping, and what a decode that is not dropped depends on.
-/

namespace Sys2Proof.Machine

open Sys2Proof.Safety

/-! ## WIN_CLEAR and WIN_PUSH (44 R212, R213) -/

/-- WIN_COUNT, the RAMs and the bus answer are apart from all else the core holds. -/
theorem window_frame (s : State) {t : State} {n : BitVec 13} {m : Memory} {r : Response}
    (ht : t = { s with winCount := n, mem := m, response := r }) :
    SameEngine s t ∧ SameErrors s t ∧ SameConfig s t ∧ SamePeaks s t ∧ SameResult s t ∧ SameSynth s t ∧ SameOutside s t := by
  subst ht
  exact ⟨⟨rfl, rfl⟩, ⟨rfl, rfl, rfl, rfl⟩, ⟨rfl, rfl, rfl, rfl, rfl, rfl, rfl, rfl, rfl, rfl, rfl⟩, ⟨rfl, rfl⟩,
    ⟨rfl, rfl, rfl, rfl, rfl⟩, ⟨rfl, rfl, rfl, rfl⟩, ⟨rfl, rfl⟩⟩

/-- An empty window is silence (44 R215). -/
theorem xw_of_winCount_zero {s : State} (h : s.winCount = 0) (i : Nat) : s.xw i = 0 :=
  if_neg (by simp [h])

theorem exec_winClear_idle {s : State} (hidle : s.eng = .idle) :
    exec .winClear s = .next ({ s with winCount := 0 }.respond .ok) := by
  rcases execWinClear_cases s with ⟨hbusy, -⟩ | ⟨-, e⟩
  · exact absurd hidle hbusy
  · exact e

theorem exec_winPush_room {s : State} (v : Word) (hidle : s.eng = .idle) (hroom : s.winCount.toNat < s.windowLength) :
    exec (.winPush v) s =
      .next ({ s.setWin s.winCount.toNat (v.extractLsb' 0 16) with winCount := s.winCount + 1 }.respond .ok) := by
  rcases execWinPush_cases v s with ⟨hbusy, -⟩ | ⟨-, hfull, -⟩ | ⟨-, -, e⟩
  · exact absurd hidle hbusy
  · exact absurd hroom hfull.not_gt
  · exact e

/-- Settles O37: only WIN_COUNT and the bus answer are written, and the view of an empty window is zero. -/
theorem winClearEmptiesWindow : Obligations.WinClearEmptiesWindow := by
  unfold Obligations.WinClearEmptiesWindow
  intro s hidle
  obtain ⟨hengine, herrors, hconfig, hpeaks, hresult, hsynth, houtside⟩ :=
    window_frame s (t := { s with winCount := 0 }.respond .ok) rfl
  refine ⟨_, exec_winClear_idle hidle, rfl, rfl, fun i => ?_, hengine, herrors, hconfig, hpeaks, hresult, hsynth,
    fun _ => rfl, houtside⟩
  rw [State.regValue, xw_of_winCount_zero rfl]
  rfl

/-- Settles O38: the sample's two bytes go to the entry at the old WIN_COUNT; the new count is at most N, so 13 bits hold it. -/
theorem winPushAppendsSample : Obligations.WinPushAppendsSample := by
  unfold Obligations.WinPushAppendsSample
  intro s v hidle hroom hlog
  have hN : 2 ^ s.log2n.toNat ≤ 2 ^ 12 := Nat.pow_le_pow_right (by decide) hlog
  have hcount : (s.winCount + 1).toNat = s.winCount.toNat + 1 := by
    rw [BitVec.toNat_add]
    exact Nat.mod_eq_of_lt (by simp; omega)
  have hxw := xw_push s (v.extractLsb' 0 16) _ hcount
  rw [← BitVec.setWidth_eq_extractLsb' (by decide)] at hxw
  refine ⟨_, exec_winPush_room v hidle hroom, rfl, hcount, ?_, fun i hi => ?_, fun i hi => ?_, fun a ha => ?_,
    window_frame s rfl⟩
  · exact (hxw _).trans (if_pos rfl)
  · exact (hxw i).trans (if_neg hi)
  · exact congrArg (BitVec.signExtend 32) ((hxw i.val).trans (if_pos hi))
  · exact ramByte_storeBytes_out s ha

/-! ## CFG writes (44 R214) -/

theorem legalLog2n_toNat (v : Word) : (legalLog2n v).toNat = min (max (v.toNat % 16) 3) 12 := by
  simp only [legalLog2n, clampNat, BitVec.toNat_ofNat, BitVec.extractLsb'_toNat, Nat.shiftRight_zero]
  omega

/-- With ENG IDLE a CFG write is not refused, whatever the synthesizer does (60 R252). -/
theorem not_interlocked_cfg {s : State} (hidle : s.eng = .idle) : ¬ Interlocked s .cfg := by
  simp [Interlocked, hidle]

/-- Settles O28: the write is accepted, and it keeps WIN_COUNT only where LOG2N stays. -/
theorem cfgWriteEmptiesWindowOnNewLength : Obligations.CfgWriteEmptiesWindowOnNewLength := by
  unfold Obligations.CfgWriteEmptiesWindowOnNewLength
  intro s v hidle
  have hwrite := hostAccess_write_accepted (s := s) (r := .cfg) v nofun nofun nofun (not_interlocked_cfg hidle)
  exact ⟨_, hwrite, legalLog2n_toNat v, fun hne => if_neg hne, fun heq => if_pos heq,
    fun hs => (writeReg_legalRegs .cfg v hs).winCount_hi⟩

/-! ## The two cases of DECODE (44 R217) -/

theorem completeDecode_of_short {s : State} (h : s.winCount.toNat < s.minSamples.toNat) :
    completeDecode s = { s.dropWindow with winCount := 0 } := by
  rcases completeDecode_cases s with ⟨-, e⟩ | ⟨hlong, -⟩
  · exact e
  · exact absurd h hlong.not_gt

theorem completeDecode_of_long {s : State} (h : s.minSamples.toNat ≤ s.winCount.toNat) :
    completeDecode s = { completeClassify (completePeaks (completeFft s)) with winCount := 0 } := by
  rcases completeDecode_cases s with ⟨hshort, -⟩ | ⟨-, e⟩
  · exact absurd hshort h.not_gt
  · exact e

/-! ## The completion of an accepted command (20 R101) -/

/-- The state with ENG, DONE and the bus answer set. -/
def State.bookkeep (s : State) (e : Engine) (d : Bool) (r : Response) : State :=
  { s with eng := e, done := d, response := r }

/-- A command's own state change neither reads nor writes ENG, DONE and the bus answer. -/
theorem completionOf_bookkeep (c : Analysis) (s : State) (e : Engine) (d : Bool) (r : Response) :
    completionOf c (s.bookkeep e d r) = (completionOf c s).bookkeep e d r := by
  cases c with
  | decode =>
    rcases Nat.lt_or_ge s.winCount.toNat s.minSamples.toNat with h | h
    · rw [completionOf, completionOf, completeDecode_of_short h, completeDecode_of_short (s := s.bookkeep e d r) h]
      rfl
    · rw [completionOf, completionOf, completeDecode_of_long h, completeDecode_of_long (s := s.bookkeep e d r) h]
      rfl
  | _ => rfl

/-- An analysis command accepted with ENG IDLE makes ENG BUSY, and the ENGINE's turn then completes it. -/
theorem startAnalysis_complete {s : State} (c : Analysis) (hidle : s.eng = .idle) :
    (s.startAnalysis c).eng = .busy c ∧
      perform .engine (s.startAnalysis c) = .next ((completionOf c s).bookkeep .idle true .ok) := by
  have hstart : s.startAnalysis c = s.bookkeep (.busy c) s.done .ok := startAnalysis_of_idle c hidle
  have hturn : (s.bookkeep (.busy c) s.done .ok).complete c = (completionOf c s).bookkeep .idle true .ok := by
    rw [State.complete, completionOf_bookkeep]
    rfl
  rw [hstart]
  exact ⟨rfl, congrArg Host.Outcome.next hturn⟩

/-- The next analysis command runs its completion on what the one before it published. -/
theorem startAnalysis_complete_next (s : State) (c : Analysis) :
    perform .engine ((s.bookkeep .idle true .ok).startAnalysis c) = .next ((completionOf c s).bookkeep .idle true .ok) := by
  obtain ⟨-, hturn⟩ := startAnalysis_complete (s := s.bookkeep .idle true .ok) c rfl
  rw [hturn, completionOf_bookkeep]
  rfl

/-! ## DECODE (44 R216 to R219) -/

theorem dropWindow_resultWord (s : State) : s.dropWindow.resultWord = 0x00020000#32 := by
  simp [State.resultWord]

/-- Settles O50: the completion writes RESULT, WIN_COUNT, DONE and ENG. -/
theorem decodeDropsShortWindow : Obligations.DecodeDropsShortWindow := by
  unfold Obligations.DecodeDropsShortWindow
  intro s hidle hshort
  obtain ⟨hbusy, hturn⟩ := startAnalysis_complete .decode hidle
  rw [completionOf, completeDecode_of_short hshort] at hturn
  exact ⟨_, _, rfl, hbusy, hturn, dropWindow_resultWord s, rfl, rfl, ⟨hidle.symm, rfl⟩, ⟨rfl, rfl, rfl, rfl⟩,
    ⟨rfl, rfl, rfl, rfl, rfl, rfl, rfl, rfl, rfl, rfl, rfl⟩, ⟨rfl, rfl⟩, ⟨rfl, rfl, rfl, rfl⟩, fun _ => rfl, ⟨rfl, rfl⟩⟩

/-- Settles O51: the bookkeeping between the units does not reach their completions. -/
theorem decodeEqualsTheThreeCommands : Obligations.DecodeEqualsTheThreeCommands := by
  unfold Obligations.DecodeEqualsTheThreeCommands
  intro s hidle hlong
  obtain ⟨-, hdecode⟩ := startAnalysis_complete .decode hidle
  obtain ⟨-, hfft⟩ := startAnalysis_complete .fft hidle
  rw [completionOf, completeDecode_of_long hlong] at hdecode
  exact ⟨_, _, _, _, _, _, _, _, _, rfl, hdecode, rfl, hfft, rfl, startAnalysis_complete_next _ .peaks,
    rfl, startAnalysis_complete_next _ .classify, exec_winClear_idle rfl, rfl⟩

/-! ## What a decode depends on (44 R215, R220) -/

/-- SPEC after a DECODE that is not dropped is what FFT leaves (44 R217). -/
theorem completeDecode_spec_of_long {s : State} (h : s.minSamples.toNat ≤ s.winCount.toNat) (k : Nat) :
    (completeDecode s).specRe k = (completeFft s).specRe k ∧ (completeDecode s).specIm k = (completeFft s).specIm k := by
  have hmem : (completeDecode s).mem = (completeFft s).mem := by rw [completeDecode_of_long h]; rfl
  simp only [State.specRe, State.specIm, State.ramWord, ramByte_congr hmem, and_self]

/-- FFT publishes the same bins from equal spectra (40 R131). -/
theorem completeFft_spec_congr {s t : State} (h : t.spectrum = s.spectrum) {k : Nat} (hk : k < s.spectrum.length) :
    (completeFft t).specRe k = (completeFft s).specRe k ∧ (completeFft t).specIm k = (completeFft s).specIm k := by
  simp only [completeFft, h, specRe_setSpec, specIm_setSpec, List.length_map, dif_pos hk, and_self]

/-- PEAKS reads CFG, FS and SPEC[0..N-1] only (41 R151 to R155). -/
theorem completePeaks_congr {s t : State} (hlog : t.log2n = s.log2n) (hpeakK : t.peakK = s.peakK) (hfs : t.fs = s.fs)
    (hspec : ∀ k, k < s.windowLength → t.specRe k = s.specRe k ∧ t.specIm k = s.specIm k) :
    SamePeaks (completePeaks s) (completePeaks t) := by
  have hN : t.windowLength = s.windowLength := by rw [State.windowLength, State.windowLength, hlog]
  have hcount : t.slotCount = s.slotCount := by rw [State.slotCount, State.slotCount, hN, hpeakK]
  have hcandidates : t.candidates = s.candidates := by
    rw [State.candidates, State.candidates, hN]
    refine List.map_congr_left fun i hi => ?_
    have hbin := List.mem_range.1 hi
    obtain ⟨hre, him⟩ := hspec (i + 1) (by omega)
    rw [State.sqMag, State.sqMag, hre, him]
  refine ⟨?_, ?_⟩
  · simp only [completePeaks, hcount]
  · simp only [completePeaks, State.ranked, State.slot, State.freqRaw, hcandidates, hcount, hlog, hfs]

/-- CLASSIFY reads the peak registers, TOL and the tones only (42 R166, R167). -/
theorem completeClassify_congr {s t : State} (hpeaks : SamePeaks s t) (htol : t.tol = s.tol) (hlo : t.toneLo = s.toneLo)
    (hhi : t.toneHi = s.toneHi) : SameResult (completeClassify s) (completeClassify t) := by
  have hposition : ∀ i, t.classifyPosition i = s.classifyPosition i := fun i => by
    simp only [State.classifyPosition, State.detected, hpeaks.cnt, hpeaks.slots, htol, hlo, hhi]
  constructor <;> simp only [completeClassify, hposition]

/-- Settles O52: the window and LOG2N give the spectrum, the spectrum the peaks, and the peaks the result. -/
theorem decodeIsMemoryless : Obligations.DecodeIsMemoryless := by
  unfold Obligations.DecodeIsMemoryless
  intro s s' _ hlong hlong' hlog hpeakK hfs htol hlo hhi hxw
  have hinput : s'.fftInput = s.fftInput := by
    rw [State.fftInput, State.fftInput, State.windowLength, State.windowLength, hlog]
    exact List.map_congr_left fun i hi => by rw [hxw i (List.mem_range.1 hi)]
  have hspectrum : s'.spectrum = s.spectrum := by rw [State.spectrum, State.spectrum, hlog, hinput]
  have hspec : ∀ k, k < 2 ^ s.log2n.toNat → (completeFft s').specRe k = (completeFft s).specRe k ∧
      (completeFft s').specIm k = (completeFft s).specIm k :=
    fun k hk => completeFft_spec_congr hspectrum (by rwa [length_spectrum])
  have hpeaks : SamePeaks (completePeaks (completeFft s)) (completePeaks (completeFft s')) :=
    completePeaks_congr hlog hpeakK hfs hspec
  have hresult := completeClassify_congr hpeaks htol hlo hhi
  simp only [completeDecode_spec_of_long hlong, completeDecode_spec_of_long hlong']
  rw [completeDecode_of_long hlong, completeDecode_of_long hlong']
  exact ⟨rfl, { hresult with }, { hpeaks with }, hspec⟩

end Sys2Proof.Machine
end

section
/-!
PROOFS. STATUS bit by bit, and the interrupt output from its flags (10 R25, R48; 45 R233, R237).
-/

namespace Sys2Proof.Machine

/-- Bit i of STATUS, by the map of 10 R25. -/
def State.statusBit (s : State) : Nat → Bool
  | 0 => s.isBusy
  | 1 => s.done
  | 4 => s.errIllegal
  | 5 => s.errBusy
  | 6 => s.errOvf
  | 7 => s.errBus
  | 8 => s.synActive
  | 9 => s.synDone
  | _ => false

/-- STATUS has no bit from 10 on. -/
theorem statusBit_of_ten_le (s : State) {i : Nat} (h : 10 ≤ i) : s.statusBit i = false := by
  obtain ⟨n, rfl⟩ := Nat.exists_eq_add_of_le' h
  rfl

theorem statusWord_getLsbD (s : State) (i : Nat) : s.statusWord.getLsbD i = s.statusBit i := by
  simp only [State.statusWord, BitVec.getLsbD_append]
  rcases Nat.lt_or_ge i 10 with h | h
  · interval_cases i <;> simp [State.statusBit]
  · obtain ⟨n, rfl⟩ := Nat.exists_eq_add_of_le' h
    simp [State.statusBit]

/-- The reserved bits of STATUS read 0 (10 R25). -/
theorem statusWord_reserved (s : State) : s.statusWord &&& 0xFFFFFC0C#32 = 0#32 := by
  refine BitVec.eq_of_getLsbD_eq fun i _ => ?_
  rw [BitVec.getLsbD_and, statusWord_getLsbD]
  rcases Nat.lt_or_ge i 10 with h | h
  · interval_cases i <;> simp [State.statusBit]
  · simp [statusBit_of_ten_le s h]

/-- A STATUS write of v clears the bits of STATUS that v has among 1, 4, 5, 6 and 7 (45 R233). -/
theorem statusWord_clearFlags (s : State) (v : Word) :
    (s.clearFlags v).statusWord = s.statusWord &&& ~~~(v &&& 0x000000F2#32) := by
  refine BitVec.eq_of_getLsbD_eq fun i hi => ?_
  rw [BitVec.getLsbD_and, BitVec.getLsbD_not, BitVec.getLsbD_and, statusWord_getLsbD, statusWord_getLsbD]
  rcases Nat.lt_or_ge i 10 with h | h
  · have hbusy : (s.clearFlags v).isBusy = s.isBusy := rfl
    have hdone : (s.clearFlags v).synDone = s.synDone := rfl
    interval_cases i <;> simp [State.statusBit, hbusy, hdone]
  · rw [statusBit_of_ten_le _ h, statusBit_of_ten_le _ h, Bool.false_and]

/-- IRQ by flag: one that is 1 and enabled (60 R259). -/
theorem irq_iff (s : State) : s.irq = true ↔
    (s.done = true ∧ s.irqEn.getLsbD 1 = true) ∨ (s.errIllegal = true ∧ s.irqEn.getLsbD 4 = true) ∨
    (s.errBusy = true ∧ s.irqEn.getLsbD 5 = true) ∨ (s.errOvf = true ∧ s.irqEn.getLsbD 6 = true) ∨
    (s.errBus = true ∧ s.irqEn.getLsbD 7 = true) := by
  have hnibble : ∀ x : BitVec 4, (x != 0#4) = (x.getLsbD 0 || x.getLsbD 1 || x.getLsbD 2 || x.getLsbD 3) := by decide
  simp only [State.irq, hnibble, BitVec.getLsbD_and, BitVec.getLsbD_extractLsb', statusWord_getLsbD]
  simp [State.statusBit]
  tauto

end Sys2Proof.Machine
end

section
/-!
PROOFS. Plain reads, and the value a register reads back after a store of it (45 R236 to R238; 20 R99).
-/

namespace Sys2Proof.Machine

open Sys2Proof.Safety

/-! ## Plain reads (45 R237) -/

/-- A plain load leaves all the core holds as it was. -/
theorem contents_load (s : State) (r : Reg) : (s.load r).contents = s.contents := by
  rcases load_cases s r with ⟨-, e⟩ | ⟨-, e⟩ <;> rw [e] <;> rfl

/-- A plain load touches neither ENG nor a flag nor the pending inputs. -/
theorem load_frame (s : State) (r : Reg) :
    SameEngine s (s.load r) ∧ SameErrors s (s.load r) ∧ (s.load r).inputs = s.inputs := by
  rcases load_cases s r with ⟨-, e⟩ | ⟨-, e⟩ <;> rw [e] <;> exact ⟨⟨rfl, rfl⟩, ⟨rfl, rfl, rfl, rfl⟩, rfl⟩

theorem load_of_output {s : State} {r : Reg} (h : ∃ c, s.eng = .busy c ∧ OutputReg s c r) : s.load r = s.respondAny :=
  if_pos ((readsAny_iff s r).2 h)

theorem load_of_not_output {s : State} {r : Reg} (h : ¬ ∃ c, s.eng = .busy c ∧ OutputReg s c r) :
    s.load r = s.respond (.data (s.regValue r)) :=
  if_neg (mt (readsAny_iff s r).1 h)

/-- Settles O24: only the answer and the count of draws are written, and the word is that of the register's fields. -/
theorem loadAnswersRegisterOrAny : Obligations.LoadAnswersRegisterOrAny := by
  unfold Obligations.LoadAnswersRegisterOrAny
  intro s r hr
  have hcontents := contents_load s r
  obtain ⟨hengine, herrors, hinputs⟩ := load_frame s r
  refine ⟨_, hostAccess_read r s hr, hengine, herrors, sameConfig_of_contents hcontents, samePeaks_of_contents hcontents,
    sameResult_of_contents hcontents, sameSynth_of_contents hcontents, winCount_of_contents hcontents,
    ramByte_congr (mem_of_contents hcontents), hinputs, fun hout => ?_, fun hout => ?_⟩
  · rw [load_of_output hout]
    exact ⟨rfl, rfl⟩
  · rw [load_of_not_output hout]
    exact ⟨⟨_, rfl, regValue_toNat s r⟩, rfl⟩

/-- STATUS is an output of no command (20 R99). -/
theorem not_outputReg_status (s : State) (c : Analysis) : ¬ OutputReg s c .status := by
  simp [OutputReg]

/-- Settles O25: no command has STATUS among its outputs, so the read answers STATUS itself. -/
theorem statusWordBits : Obligations.StatusWordBits := by
  unfold Obligations.StatusWordBits
  intro s
  have hload : s.load .status = s.respond (.data s.statusWord) :=
    load_of_not_output fun ⟨c, _, hout⟩ => not_outputReg_status s c hout
  have hbit := statusWord_getLsbD s
  refine ⟨_, _, hostAccess_read .status s nofun, by rw [hload]; rfl, rfl, (hbit 0).trans ?_, hbit 1, hbit 4, hbit 5, hbit 6,
    hbit 7, hbit 8, hbit 9, statusWord_reserved s⟩
  rw [Bool.eq_iff_iff, decide_eq_true_iff]
  exact s.isBusy_eq_true

/-! ## Reading back a store (45 R236, R238) -/

theorem legalPeakK_toNat (v : Word) : (legalPeakK v).toNat = min (max (v.toNat / 256 % 16) 1) 8 := by
  simp only [legalPeakK, clampNat, BitVec.toNat_ofNat, BitVec.extractLsb'_toNat, Nat.shiftRight_eq_div_pow]
  omega

theorem legalFs_toNat (v : Word) : (legalFs v).toNat = max (v.toNat % 2 ^ 18) 1 := by
  simp only [legalFs, BitVec.toNat_ofNat, BitVec.extractLsb'_toNat, Nat.shiftRight_zero]
  omega

theorem legalSymLen_toNat (v : Word) : (legalSymLen v).toNat = max (v.toNat % 2 ^ 24) 1 := by
  simp only [legalSymLen, BitVec.toNat_ofNat, BitVec.extractLsb'_toNat, Nat.shiftRight_zero]
  omega

theorem legalSynLen_toNat (v : Word) : (legalSynLen v).toNat = min (v.toNat % 2 ^ 9) 256 := by
  simp only [legalSynLen, BitVec.toNat_ofNat, BitVec.extractLsb'_toNat, Nat.shiftRight_zero]
  omega

theorem legalAmpl_toNat (v : Word) : (legalAmpl v).toNat = min (v.toNat % 2 ^ 17) 32768 := by
  simp only [legalAmpl, BitVec.toNat_ofNat, BitVec.extractLsb'_toNat, Nat.shiftRight_zero]
  omega

theorem set8_get_self {α : Type} (u : Vector α 8) (i : Fin 8) (a : α) : (u.set i.val a i.isLt).get i = a :=
  (set8_get u i i a).trans (if_pos rfl)

/-- After a store a read-write register holds the legalised word. -/
theorem wordOf_writeReg (s : State) {v : Word} {r : Reg} {n : Nat} (h : legalised v r = some n) :
    wordOf (s.writeReg v r) r = n := by
  cases r with
  | irqEn => exact Option.some.inj h
  | cfg =>
    rw [← Option.some.inj h, ← legalPeakK_toNat, ← legalLog2n_toNat]
    rfl
  | fs => exact (legalFs_toNat v).trans (Option.some.inj h)
  | tol => exact Option.some.inj h
  | minSamples => exact (BitVec.extractLsb'_toNat ..).trans (Option.some.inj h)
  | symLen => exact (legalSymLen_toNat v).trans (Option.some.inj h)
  | synLen => exact (legalSynLen_toNat v).trans (Option.some.inj h)
  | ampl => exact (legalAmpl_toNat v).trans (Option.some.inj h)
  | toneLo i => exact (congrArg BitVec.toNat (set8_get_self s.toneLo i v)).trans (Option.some.inj h)
  | toneHi i => exact (congrArg BitVec.toNat (set8_get_self s.toneHi i v)).trans (Option.some.inj h)
  | msg i =>
    have hmsg : (s.setMsg i.val (v.extractLsb' 0 8)).msg i.val = v.extractLsb' 0 8 := (msg_setMsg ..).trans (if_pos rfl)
    exact (congrArg BitVec.toNat hmsg).trans ((BitVec.extractLsb'_toNat ..).trans (Option.some.inj h))
  | _ => cases h

/-- No read-write register is an output of a command (20 R99). -/
theorem not_outputReg_of_legalised {v : Word} {r : Reg} {n : Nat} (h : legalised v r = some n) (s : State) (c : Analysis) :
    ¬ OutputReg s c r := by
  rintro (⟨-, k, -, rfl | rfl⟩ | ⟨-, rfl | ⟨j, rfl | rfl | rfl | rfl⟩⟩ | ⟨-, rfl | ⟨i, rfl⟩⟩ | ⟨-, rfl | ⟨i, rfl⟩⟩) <;>
    cases h

/-- A read of a register that is no output now answers the number its fields give. -/
theorem load_of_wordOf {t : State} {r : Reg} {n : Nat} (hout : ∀ c, ¬ OutputReg t c r) (h : wordOf t r = n) :
    t.load r = t.respond (.data (BitVec.ofNat 32 n)) ∧ n < 2 ^ 32 := by
  rw [load_of_not_output fun ⟨c, _, hc⟩ => hout c hc, ← h, ← regValue_toNat, BitVec.ofNat_toNat, BitVec.setWidth_eq]
  exact ⟨rfl, (t.regValue r).isLt⟩

/-- Settles O26: the accepted store leaves the legalised word in the register, and no command has that among its outputs. -/
theorem storeThenLoadReturnsLegalised : Obligations.StoreThenLoadReturnsLegalised := by
  unfold Obligations.StoreThenLoadReturnsLegalised
  intro s r v n hlegal hfree
  obtain ⟨hcmd, hstatus, hwin, hsyn⟩ : r ≠ .cmd ∧ r ≠ .status ∧ r ≠ .winData ∧ r ≠ .synData := by
    refine ⟨?_, ?_, ?_, ?_⟩ <;> rintro rfl <;> cases hlegal
  obtain ⟨-, herrors, -⟩ := writeReg_frame s v r
  obtain ⟨hload, hlt⟩ := load_of_wordOf (t := (s.writeReg v r).respond .ok) (not_outputReg_of_legalised hlegal _)
    (wordOf_writeReg s hlegal)
  refine ⟨_, _, hostAccess_write_accepted v hcmd hstatus hwin hfree, rfl, { herrors with }, hostAccess_read r _ hsyn, ?_, hlt⟩
  rw [hload]
  rfl

end Sys2Proof.Machine
end

section
/-!
PROOFS. The statements about the control commands and the interrupt enables (45 R230 to R234).
-/

namespace Sys2Proof.Machine

open Sys2Proof.Safety

/-! ## IRQ_EN and IRQ (45 R234) -/

/-- No interlock names IRQ_EN (60 R252), so a write of it is never refused (45 R234). -/
theorem hostAccess_write_irqEn (v : Word) (s : State) :
    hostAccess (.write 0x010#16 4 v) s = .next ({ s with irqEn := v &&& irqEnMask }.respond .ok) := by
  have hfree : ¬ Interlocked s .irqEn := by simp [Interlocked]
  exact hostAccess_write_accepted (r := .irqEn) v nofun nofun nofun hfree

/-- A STATUS write is the instruction STATUS_W1C (30 R117), which is never refused (45 R233). -/
theorem hostAccess_write_status (v : Word) (s : State) :
    hostAccess (.write 0x00C#16 4 v) s = .next ((s.clearFlags v).respond .ok) :=
  hostAccess_instr (decode_encode (.statusW1c v)) s

/-- Settles O31: IRQ goes by flags and enables, and the first write sets the enables only, the second the flags only. -/
theorem irqEnWriteTakesEffectAtOnce : Obligations.IrqEnWriteTakesEffectAtOnce := by
  unfold Obligations.IrqEnWriteTakesEffectAtOnce
  constructor <;> intro s v
  · refine ⟨_, hostAccess_write_irqEn v s, rfl, rfl, ⟨rfl, rfl, rfl, rfl⟩, rfl, ?_⟩
    rw [irq_iff]
    simp [irqEnMask]
  · refine ⟨_, hostAccess_write_status v s, rfl, rfl, ?_⟩
    rw [irq_iff]
    simp [and_assoc, and_comm]

/-! ## The commands (45 R230 to R233) -/

/-- Settles O32: only the bus answers. -/
theorem nopChangesNothing : Obligations.NopChangesNothing := by
  unfold Obligations.NopChangesNothing
  exact fun s => ⟨_, rfl, rfl, ⟨rfl, rfl⟩, ⟨rfl, rfl, rfl, rfl⟩, sameData_respond s .ok⟩

/-- The reset tone table is the grid of 10 R40 in units of 1/4096 Hz. -/
theorem toneReset_toNat (i : Fin 8) : (toneLoReset.get i).toNat = (1000 + 400 * i.val) * 4096 ∧
    (toneHiReset.get i).toNat = (1200 + 400 * i.val) * 4096 := by
  revert i
  decide

/-- After reset only SYN_DONE reads 1: the message is empty (43 R199). -/
theorem resetCore_statusWord (s : State) : s.resetCore.statusWord = 0x00000200#32 := by
  rw [State.statusWord, synDone_of_synLen_zero rfl]
  simp [State.resetCore, State.isBusy]

theorem resetCore_cfgWord (s : State) : s.resetCore.cfgWord = 0x0000080C#32 := by
  simp [State.cfgWord, State.resetCore]

theorem resetCore_irq (s : State) : s.resetCore.irq = false := by
  rw [Bool.eq_false_iff, ne_eq, irq_iff]
  simp [State.resetCore]

theorem resetCore_resultWord (s : State) : s.resetCore.resultWord = 0#32 := by
  simp [State.resultWord, State.resetCore]

theorem resetCore_acc (s : State) (i : Fin 8) (v : Bool) : s.resetCore.acc i v = 0#32 := by
  cases v <;> exact replicate8_get _ i

/-- Settles O33: the values that reset writes, register by register. -/
theorem softResetGivesResetValues : Obligations.SoftResetGivesResetValues := by
  unfold Obligations.SoftResetGivesResetValues
  intro s
  exact ⟨_, rfl, rfl, rfl, resetCore_statusWord s, rfl, resetCore_irq s, resetCore_cfgWord s, rfl, rfl, rfl, rfl, rfl, rfl,
    rfl, rfl, resetCore_acc s, resetCore_resultWord s, rfl, replicate8_get _, replicate8_get _, toneReset_toNat,
    fun _ => rfl, ⟨rfl, rfl⟩, s.resetCore, rfl, rfl⟩

/-- Equal contents, and nothing drawn or taken from the inputs: all data is as it was. -/
theorem sameData_of_contents {s t : State} (h : t.contents = s.contents) (houtside : SameOutside s t) : SameData s t where
  config := sameConfig_of_contents h
  peaks := samePeaks_of_contents h
  result := sameResult_of_contents h
  synth := sameSynth_of_contents h
  winCount := winCount_of_contents h
  ram := ramByte_congr (mem_of_contents h)
  outside := houtside

/-- Settles O34: the flags are cleared bit by bit, and nothing else is written. -/
theorem statusWriteClearsWrittenOnes : Obligations.StatusWriteClearsWrittenOnes := by
  unfold Obligations.StatusWriteClearsWrittenOnes
  exact fun s v => ⟨_, rfl, rfl, statusWord_clearFlags s v, rfl, sameData_of_contents rfl ⟨rfl, rfl⟩⟩

end Sys2Proof.Machine
end

section
/-!
PROOFS. The errors and the interrupt: what a refused access does, that one access raises at most one error flag, and the level
that IRQ has (60 R250 to R260).
-/

namespace Sys2Proof.Machine

open Sys2Proof.Safety

/-! ## Refused instructions and stores (60 R252, R253) -/

/-- A refusal with ERR_BUSY answers normally, leaves the flag 1 and changes nothing else (60 R250). -/
theorem refuse_busy_spec (s : State) :
    (s.refuse .busy).response = .ok ∧ (s.refuse .busy).errBusy = true ∧ OnlyRaises .busy s (s.refuse .busy) :=
  ⟨rfl, rfl, onlyRaises_setErr s .busy .ok⟩

theorem startAnalysis_of_busy {s : State} (c : Analysis) (hbusy : s.eng ≠ .idle) : s.startAnalysis c = s.refuse .busy := by
  rcases startAnalysis_cases s c with ⟨hidle, -⟩ | ⟨-, e⟩
  · exact absurd hidle hbusy
  · exact e

theorem exec_winClear_busy {s : State} (hbusy : s.eng ≠ .idle) : exec .winClear s = .next (s.refuse .busy) := by
  rcases execWinClear_cases s with ⟨-, e⟩ | ⟨hidle, -⟩
  · exact e
  · exact absurd hidle hbusy

/-- The interlock is tested before the full window (60 R260). -/
theorem exec_winPush_busy {s : State} (v : Word) (hbusy : s.eng ≠ .idle) : exec (.winPush v) s = .next (s.refuse .busy) := by
  rcases execWinPush_cases v s with ⟨-, e⟩ | ⟨hidle, -⟩ | ⟨hidle, -⟩
  · exact e
  · exact absurd hidle hbusy
  · exact absurd hidle hbusy

theorem exec_winPush_full {s : State} (v : Word) (hidle : s.eng = .idle) (hfull : s.windowLength ≤ s.winCount.toNat) :
    exec (.winPush v) s = .next (s.refuse .ovf) := by
  rcases execWinPush_cases v s with ⟨hbusy, -⟩ | ⟨-, -, e⟩ | ⟨-, hroom, -⟩
  · exact absurd hidle hbusy
  · exact e
  · exact absurd hroom hfull.not_gt

/-- Settles O22: each of the six tests ENG first, and refuses when it is BUSY. -/
theorem busyEngineRefusesCommands : Obligations.BusyEngineRefusesCommands := by
  unfold Obligations.BusyEngineRefusesCommands
  intro s c i heng hi
  have hbusy : s.eng ≠ .idle := by simp [heng]
  refine ⟨s.refuse .busy, ?_, refuse_busy_spec s⟩
  rcases hi with rfl | rfl | rfl | rfl | rfl | ⟨v, rfl⟩
  · exact congrArg Host.Outcome.next (startAnalysis_of_busy .fft hbusy)
  · exact congrArg Host.Outcome.next (startAnalysis_of_busy .peaks hbusy)
  · exact congrArg Host.Outcome.next (startAnalysis_of_busy .classify hbusy)
  · exact congrArg Host.Outcome.next (startAnalysis_of_busy .decode hbusy)
  · exact exec_winClear_busy hbusy
  · exact exec_winPush_busy v hbusy

/-- A write that the interlock table lists is refused with ERR_BUSY. -/
theorem hostAccess_write_refused {s : State} {r : Reg} (v : Word) (h : Interlocked s r) :
    hostAccess (.write r.offset 4 v) s = .next (s.refuse .busy) := by
  obtain ⟨hcmd, hstatus, hwin⟩ : r ≠ .cmd ∧ r ≠ .status ∧ r ≠ .winData := by
    refine ⟨?_, ?_, ?_⟩ <;> rintro rfl <;> simp [Interlocked] at h
  rw [hostAccess_write r v s hcmd hstatus hwin]
  rcases store_cases s r v with ⟨-, e⟩ | ⟨hfree, -⟩
  · rw [e]
  · exact absurd ((storeRefused_iff s r).2 h) (by simp [hfree])

/-- Settles O23: the interlock test of a store is R252's table, and a refused store raises ERR_BUSY alone. -/
theorem interlockedStoresAreRefused : Obligations.InterlockedStoresAreRefused := by
  unfold Obligations.InterlockedStoresAreRefused
  exact fun s r v h => ⟨_, hostAccess_write_refused v h, refuse_busy_spec s⟩

/-- Settles O39: with ENG IDLE the test that fails is the one for room. -/
theorem winPushIntoFullWindowOverflows : Obligations.WinPushIntoFullWindowOverflows := by
  unfold Obligations.WinPushIntoFullWindowOverflows
  exact fun s v hidle hfull => ⟨_, exec_winPush_full v hidle hfull.ge, rfl, rfl, onlyRaises_setErr s .ovf .ok⟩

/-! ## One error at most (60 R250, R260) -/

/-- Where every flag that is 1 after was 1 before, no error flag rises. -/
theorem KeepsFlags.not_rises {s t : State} (h : KeepsFlags t s) (f : ErrFlag) : ¬ Rises f s t := by
  cases f
  · exact fun ⟨hs, ht⟩ => Bool.eq_false_iff.1 hs (h.illegal ht)
  · exact fun ⟨hs, ht⟩ => Bool.eq_false_iff.1 hs (h.busy ht)
  · exact fun ⟨hs, ht⟩ => Bool.eq_false_iff.1 hs (h.ovf ht)
  · exact fun ⟨hs, ht⟩ => Bool.eq_false_iff.1 hs (h.bus ht)

/-- Where ENG, DONE and the error flags stay, every flag that is 1 after was 1 before. -/
theorem keepsFlags_of_same {s t : State} (hengine : SameEngine s t) (herrors : SameErrors s t) : KeepsFlags t s :=
  ⟨hengine.done.symm.trans, herrors.illegal.symm.trans, herrors.busy.symm.trans, herrors.ovf.symm.trans,
    herrors.bus.symm.trans⟩

/-- The only flag that setting g can make rise is g. -/
theorem eq_of_rises_setErr {s : State} {f g : ErrFlag} {r : Response} (h : Rises f s ((s.setErr g).respond r)) : f = g := by
  cases f <;>
  · obtain ⟨hs, ht⟩ := h
    simpa [hs, eq_comm] using ht

/-- A STATUS write sets no flag (45 R233). -/
theorem keepsFlags_clearFlags (s : State) (v : Word) : KeepsFlags (s.clearFlags v) s := by
  constructor <;> intro h <;> exact (Bool.and_eq_true_iff.1 h).1

/-- An instruction that is not refused makes no sticky flag rise. -/
theorem exec_raises {i : Instr} {s t : State} (h : exec i s = .next t) : (∃ f, t = s.refuse f) ∨ KeepsFlags t s := by
  rcases exec_cases h with hrefused | ⟨-, rfl⟩ | ⟨-, -, rfl⟩ | ⟨c, -, rfl⟩ | ⟨-, rfl⟩ | ⟨-, rfl⟩ | ⟨-, rfl⟩ |
    ⟨v, -, -, -, rfl⟩ | ⟨-, -, r, rfl⟩ | ⟨-, -, r, rfl⟩ | ⟨v, -, rfl⟩
  · exact .inl hrefused
  · exact .inr ⟨id, id, id, id, id⟩
  · exact .inr ⟨id, id, id, id, id⟩
  · exact .inr ⟨id, id, id, id, id⟩
  · exact .inr ⟨id, id, id, id, id⟩
  · exact .inr ⟨id, id, id, id, id⟩
  · exact .inr ⟨nofun, nofun, nofun, nofun, nofun⟩
  · exact .inr ⟨id, id, id, id, id⟩
  · exact .inr ⟨id, id, id, id, id⟩
  · exact .inr ⟨id, id, id, id, id⟩
  · exact .inr { keepsFlags_clearFlags s v with }

/-- A host access is refused with one error flag and has no other effect, or makes no sticky flag rise. -/
theorem hostAccess_raises {a : Access} {s t : State} (h : hostAccess a s = .next t) :
    (∃ f r, t = (s.setErr f).respond r) ∨ KeepsFlags t s := by
  rcases hostAccess_cases h with ⟨i, -, he⟩ | ⟨r, -, rfl⟩ | ⟨r, v, -, rfl⟩ | ⟨why, -, rfl⟩
  · exact (exec_raises he).imp_left fun ⟨f, e⟩ => ⟨f, .ok, e⟩
  · obtain ⟨hengine, herrors, -⟩ := load_frame s r
    exact .inr (keepsFlags_of_same hengine herrors)
  · rcases store_cases s r v with ⟨-, e⟩ | ⟨-, e⟩ <;> rw [e]
    · exact .inl ⟨.busy, .ok, rfl⟩
    · obtain ⟨hengine, herrors, -⟩ := writeReg_frame s v r
      exact .inr (keepsFlags_of_same { hengine with } { herrors with })
  · rcases reject_cases s why with e | e <;> rw [e]
    · exact .inl ⟨.bus, .error, rfl⟩
    · exact .inl ⟨.illegal, .ok, rfl⟩

/-- Settles O14: an access under which a flag rises is a refused one, and that sets a single flag. -/
theorem atMostOneErrorPerAccess : Obligations.AtMostOneErrorPerAccess := by
  unfold Obligations.AtMostOneErrorPerAccess
  intro s t a h
  rcases hostAccess_raises h with ⟨e, r, rfl⟩ | hkeep
  · refine ⟨fun f g hf hg => (eq_of_rises_setErr hf).trans (eq_of_rises_setErr hg).symm, fun f hf => ?_⟩
    rw [eq_of_rises_setErr hf]
    exact onlyRaises_setErr s e r
  · exact ⟨fun f _ hf => absurd hf (hkeep.not_rises f), fun f hf => absurd hf (hkeep.not_rises f)⟩

/-! ## The interrupt output (60 R259) -/

/-- Settles O30: bits 7:4 of STATUS and of IRQ_EN meet in the four error flags, and bit 1 in DONE. -/
theorem irqIsEnabledFlagPending : Obligations.IrqIsEnabledFlagPending := by
  unfold Obligations.IrqIsEnabledFlagPending
  exact irq_iff

end Sys2Proof.Machine
end

section
/-!
PROOFS. Every state has a next state, and a step takes exactly the first pending input (60 R250, R256, 70 R290).
-/

namespace Sys2Proof.Machine

open Sys2Proof.Safety

/-! ## Every move answers a next state -/

/-- Every instruction has a meaning in every state: what an instruction does not accept it answers with an error flag, which is
a next state too (60 R250). -/
theorem exists_exec_eq_next (i : Instr) (s : State) : ∃ t, exec i s = .next t := by
  cases i with
  | winClear => rcases execWinClear_cases s with ⟨-, e⟩ | ⟨-, e⟩ <;> exact ⟨_, e⟩
  | winPush v => rcases execWinPush_cases v s with ⟨-, e⟩ | ⟨-, -, e⟩ | ⟨-, -, e⟩ <;> exact ⟨_, e⟩
  | synRead => rcases execSynRead_cases s with ⟨-, e⟩ | ⟨-, e⟩ <;> exact ⟨_, e⟩
  | nop | fft | peaks | classify | decode | synStart | synStop | softReset | statusW1c => exact ⟨_, rfl⟩

theorem exists_hostAccess_eq_next (a : Access) (s : State) : ∃ t, hostAccess a s = .next t := by
  unfold hostAccess
  cases decode a with
  | instr i => exact exists_exec_eq_next i s
  | load | store | rejected => exact ⟨_, rfl⟩

theorem exists_perform_eq_next (e : Input) (s : State) : ∃ t, perform e s = .next t := by
  cases e with
  | host a => exact exists_hostAccess_eq_next a s
  | engine | resetPin => exact ⟨_, rfl⟩

/-! ## No move writes the pending inputs (log 1) -/

theorem store_inputs (s : State) (r : Reg) (v : Word) : (s.store r v).inputs = s.inputs := by
  rcases store_cases s r v with ⟨-, e⟩ | ⟨-, e⟩ <;> rw [e]
  · exact State.setErr_inputs s .busy
  · obtain ⟨-, -, -, -, -, houtside⟩ := writeReg_frame s v r
    exact houtside.inputs

theorem reject_inputs (s : State) (why : Reject) : (s.reject why).inputs = s.inputs := by
  rcases reject_cases s why with e | e <;> rw [e]
  · exact State.setErr_inputs s .bus
  · exact State.setErr_inputs s .illegal

theorem engineTurn_inputs (s : State) : s.engineTurn.inputs = s.inputs := by
  rcases engineTurn_cases s with ⟨-, e⟩ | ⟨c, -, e⟩ <;> rw [e]
  obtain ⟨-, -, -, -, houtside⟩ := completionOf_frame c s
  exact houtside.inputs

theorem hostAccess_inputs {a : Access} {s t : State} (h : hostAccess a s = .next t) : t.inputs = s.inputs := by
  rcases hostAccess_cases h with ⟨i, -, he⟩ | ⟨r, -, rfl⟩ | ⟨r, v, -, rfl⟩ | ⟨why, -, rfl⟩
  · exact (exec_sameOutside he).inputs
  · obtain ⟨-, -, hinputs⟩ := load_frame s r
    exact hinputs
  · exact store_inputs s r v
  · exact reject_inputs s why

theorem perform_inputs {e : Input} {s t : State} (h : perform e s = .next t) : t.inputs = s.inputs := by
  rcases perform_cases h with ⟨a, -, ha⟩ | ⟨-, rfl⟩ | ⟨-, rfl⟩
  · exact hostAccess_inputs ha
  · exact engineTurn_inputs s
  · rfl

/-! ## The step -/

/-- Settles O6: a step is its move on the state without the first input, and a move answers a next state with the inputs it
found. -/
theorem everyStepAnswersNext : Obligations.EveryStepAnswersNext := by
  unfold Obligations.EveryStepAnswersNext
  intro s
  obtain ⟨t, ht⟩ := exists_perform_eq_next (moveOf s) { s with inputs := s.inputs.tail }
  exact ⟨t, (step_eq s).trans ht, perform_inputs ht⟩

end Sys2Proof.Machine
end
